-- ==== Sys2Proof/Syntax.lean ====
section
/-! DEFINITION. The sixteen commands of the engine (`30_encoding.md` rule R83), one constructor for each row of
spec/opcode_table.json. Operands that are not in the command word stand in `KEY` and `IB` at fixed slots (R86). -/

namespace Sys2Proof

/-- A command with the operands its word carries: `len` is the field `LEN` in bytes (R82), `useH7` the
one-bit selector `H7`, true for the h7 path (R81, R220). -/
inductive Instr where
  /-- `SETKEY len`: load the key scheduler (R122). -/
  | setkey (len : Nat)
  /-- `ENCRYPT`: encrypt one block under the loaded schedule (R123). -/
  | encrypt
  /-- `AES128`: one-shot block encryption in toolbox order (R124). -/
  | aes128
  /-- `CMAC len`: the MAC of a message of explicit length (R159). -/
  | cmac (len : Nat)
  /-- `DBL`: the GF(2^128) doubler (R157). -/
  | dbl
  /-- `SUBKEY`: the CMAC subkeys of a key (R158). -/
  | subkey
  /-- `CLR`: software reset of the instance (R240). -/
  | clr
  /-- `F4`: confirm value (R191). -/
  | f4
  /-- `F5`: MacKey and LTK (R192). -/
  | f5
  /-- `F6`: check value (R193). -/
  | f6
  /-- `G2`: the six-digit value (R194). -/
  | g2
  /-- `H6`: derived key, secret as key (R195). -/
  | h6
  /-- `H7`: derived key, secret as message (R196). -/
  | h7
  /-- `AH`: address hash (R197). -/
  | ah
  /-- `LTK2LK h7` or `LTK2LK h6`: LTK to link key (R224). -/
  | ltk2lk (useH7 : Bool)
  /-- `LK2LTK h7` or `LK2LTK h6`: link key to LTK (R225). -/
  | lk2ltk (useH7 : Bool)
  deriving DecidableEq, Repr

end Sys2Proof
end

