-- ==== Sys2Proof/WellFormed.lean ====
section
/-! DEFINITION. Which terms of `Instr` a command word can carry (`30_encoding.md` rules R81, R82). -/

namespace Sys2Proof

/-- `LEN` is "unsigned 0..65535" (R81). A `len` the command itself turns away (`SETKEY 15`, `CMAC` beyond
`MSG_MAX`) is well formed: the word exists and its refusal is the command's own (R252). -/
def Instr.wellFormed : Instr → Bool
  | .setkey len => decide (len < 65536)
  | .encrypt => true
  | .aes128 => true
  | .cmac len => decide (len < 65536)
  | .dbl => true
  | .subkey => true
  | .clr => true
  | .f4 => true
  | .f5 => true
  | .f6 => true
  | .g2 => true
  | .h6 => true
  | .h7 => true
  | .ah => true
  | .ltk2lk _ => true
  | .lk2ltk _ => true

end Sys2Proof
end

