-- ==== Sys2Proof/Word.lean ====
section
/-! DEFINITION. The value types of the engine: bytes, 32-bit words and fixed-length byte sequences
(`00_scope.md` rules R9, R10). -/

namespace Sys2Proof

/-- A byte, an unsigned integer 0..255, bit 7 most significant (R9). -/
abbrev Byte := BitVec 8

/-- A 32-bit word, bit 31 most significant (R10). -/
abbrev Word32 := BitVec 32

/-- `Bytes(n)`: a sequence of exactly `n` bytes indexed from 0 (R9). -/
abbrev Bytes (n : Nat) := Vector Byte n

/-- `Octet16`, the "universal currency for keys, nonces, and MAC outputs" (R9). -/
abbrev Octet16 := Bytes 16

/-- `0^128`, the Octet16 of sixteen zero bytes (R9). -/
def zero128 : Octet16 := Vector.replicate 16 0#8

end Sys2Proof
end

