-- ==== Sys2Proof/Decode.lean ====
section
/-! DEFINITION. The command word, its decoder and its encoder (`30_encoding.md` rules R80 to R85, R90; the first
four tests of `60_exceptions.md` rule R252). -/

namespace Sys2Proof

/-- `OP = c[7:0]` (R81). -/
def opField (c : Word32) : Byte := c.extractLsb' 0 8

/-- `H7 = c[8]` (R81). -/
def h7Field (c : Word32) : Bool := c.getLsbD 8

/-- `RSV = c[15:9]` (R81). -/
def rsvField (c : Word32) : BitVec 7 := c.extractLsb' 9 7

/-- `LEN = c[31:16]`, an unsigned integer, not scaled (R82). -/
def lenField (c : Word32) : Nat := (c.extractLsb' 16 16).toNat

/-- Why a command word spells no command (R85). -/
inductive DecodeError where
  /-- `OP` is none of the sixteen opcodes (R85 (a)). -/
  | unassignedOpcode
  /-- A field the command does not use is not zero (R85 (b)). -/
  | reservedFieldSet
  deriving DecidableEq, Repr

/-- The opcode byte of a command (R83). -/
def Instr.opcode : Instr → Byte
  | .setkey _ => 0x01#8
  | .encrypt => 0x02#8
  | .aes128 => 0x03#8
  | .cmac _ => 0x04#8
  | .dbl => 0x05#8
  | .subkey => 0x06#8
  | .clr => 0x07#8
  | .f4 => 0x10#8
  | .f5 => 0x11#8
  | .f6 => 0x12#8
  | .g2 => 0x13#8
  | .h6 => 0x14#8
  | .h7 => 0x15#8
  | .ah => 0x16#8
  | .ltk2lk _ => 0x18#8
  | .lk2ltk _ => 0x19#8

/-- The opcode map of R83 read from byte to command; the two operand fields are handed on. -/
def instrOfOpcode (op : Byte) (useH7 : Bool) (len : Nat) : Option Instr :=
  match op.toNat with
  | 0x01 => some (.setkey len)
  | 0x02 => some .encrypt
  | 0x03 => some .aes128
  | 0x04 => some (.cmac len)
  | 0x05 => some .dbl
  | 0x06 => some .subkey
  | 0x07 => some .clr
  | 0x10 => some .f4
  | 0x11 => some .f5
  | 0x12 => some .f6
  | 0x13 => some .g2
  | 0x14 => some .h6
  | 0x15 => some .h7
  | 0x16 => some .ah
  | 0x18 => some (.ltk2lk useH7)
  | 0x19 => some (.lk2ltk useH7)
  | _ => none

/-- The commands that use the field `H7` (R83). -/
def Instr.usesH7 : Instr → Bool
  | .ltk2lk _ => true
  | .lk2ltk _ => true
  | _ => false

/-- The commands that use the field `LEN` (R83). -/
def Instr.usesLen : Instr → Bool
  | .setkey _ => true
  | .cmac _ => true
  | _ => false

/-- Decodes any 32-bit word: the command it spells, or why it spells none, tested in the order of R252 steps
1 to 4. "Unused fields are never ignored" (R85). -/
def decode (c : Word32) : Except DecodeError Instr :=
  match instrOfOpcode (opField c) (h7Field c) (lenField c) with
  | none => .error .unassignedOpcode
  | some i =>
    if rsvField c ≠ 0#7 then .error .reservedFieldSet
    else if h7Field c && !i.usesH7 then .error .reservedFieldSet
    else if lenField c ≠ 0 && !i.usesLen then .error .reservedFieldSet
    else .ok i

/-- Lays the fields of format `C` out in a word, `RSV = 0` (R81). -/
def packCommand (op : Byte) (useH7 : Bool) (len : Nat) : Word32 :=
  BitVec.ofNat 32 len <<< 16 ||| (BitVec.ofBool useH7).setWidth 32 <<< 8 ||| op.setWidth 32

/-- The command word of a well-formed command (R83, R88). -/
def encode : Instr → Word32
  | .setkey len => packCommand 0x01#8 false len
  | .encrypt => packCommand 0x02#8 false 0
  | .aes128 => packCommand 0x03#8 false 0
  | .cmac len => packCommand 0x04#8 false len
  | .dbl => packCommand 0x05#8 false 0
  | .subkey => packCommand 0x06#8 false 0
  | .clr => packCommand 0x07#8 false 0
  | .f4 => packCommand 0x10#8 false 0
  | .f5 => packCommand 0x11#8 false 0
  | .f6 => packCommand 0x12#8 false 0
  | .g2 => packCommand 0x13#8 false 0
  | .h6 => packCommand 0x14#8 false 0
  | .h7 => packCommand 0x15#8 false 0
  | .ah => packCommand 0x16#8 false 0
  | .ltk2lk b => packCommand 0x18#8 b 0
  | .lk2ltk b => packCommand 0x19#8 b 0

/-- What the decoder reads from a word numbered as spec/opcode_table.json numbers it: every command is one
32-bit word (R90), bits at or above `nbits` are zero. -/
def decodeTableWord (nbits w : Nat) : Option Instr :=
  (decode (BitVec.ofNat 32 (w % 2 ^ nbits))).toOption

/-- One row of spec/opcode_table.json: the bits that select the command and their value. -/
structure OpcodeRow where
  /-- The row's mnemonic. -/
  mnemonic : String
  /-- The row's `mask`. -/
  mask : Word32
  /-- The row's `match`. -/
  value : Word32
  deriving DecidableEq, Repr

/-- The rows of spec/opcode_table.json (R81, R83): a command's fields `LEN` and `H7` stand outside its mask. -/
def opcodeRows : List OpcodeRow :=
  [⟨"SETKEY", 0x0000FFFF#32, 0x00000001#32⟩, ⟨"ENCRYPT", 0xFFFFFFFF#32, 0x00000002#32⟩,
   ⟨"AES128", 0xFFFFFFFF#32, 0x00000003#32⟩, ⟨"CMAC", 0x0000FFFF#32, 0x00000004#32⟩,
   ⟨"DBL", 0xFFFFFFFF#32, 0x00000005#32⟩, ⟨"SUBKEY", 0xFFFFFFFF#32, 0x00000006#32⟩,
   ⟨"CLR", 0xFFFFFFFF#32, 0x00000007#32⟩, ⟨"F4", 0xFFFFFFFF#32, 0x00000010#32⟩] ++
  [⟨"F5", 0xFFFFFFFF#32, 0x00000011#32⟩, ⟨"F6", 0xFFFFFFFF#32, 0x00000012#32⟩,
   ⟨"G2", 0xFFFFFFFF#32, 0x00000013#32⟩, ⟨"H6", 0xFFFFFFFF#32, 0x00000014#32⟩,
   ⟨"H7", 0xFFFFFFFF#32, 0x00000015#32⟩, ⟨"AH", 0xFFFFFFFF#32, 0x00000016#32⟩,
   ⟨"LTK2LK", 0xFFFFFEFF#32, 0x00000018#32⟩, ⟨"LK2LTK", 0xFFFFFEFF#32, 0x00000019#32⟩]

/-- The mnemonic of a command (R83). -/
def Instr.mnemonic : Instr → String
  | .setkey _ => "SETKEY"
  | .encrypt => "ENCRYPT"
  | .aes128 => "AES128"
  | .cmac _ => "CMAC"
  | .dbl => "DBL"
  | .subkey => "SUBKEY"
  | .clr => "CLR"
  | .f4 => "F4"
  | .f5 => "F5"
  | .f6 => "F6"
  | .g2 => "G2"
  | .h6 => "H6"
  | .h7 => "H7"
  | .ah => "AH"
  | .ltk2lk _ => "LTK2LK"
  | .lk2ltk _ => "LK2LTK"

end Sys2Proof
end

