-- ==== Sys2Proof/Config.lean ====
section
/-! DEFINITION. The parameters of the engine that no step changes: the open implementation parameters of
`00_scope.md` rule R6 and the recipe constants of rule R7, which the spec asks the model to take as
configuration fields. The values the spec adopts stand in Sys2Proof/Machine/Params.lean. -/

namespace Sys2Proof

/-- One instance's configuration. All constants are in spec order, most significant byte first (R7, R11). -/
structure Config where
  /-- `MSG_MAX`: the size in bytes of the input buffer `IB` (R6). -/
  msgMax : Nat
  /-- `BASE`: the bus address of offset 0 of the instance's window (R6, R50). -/
  base : Nat
  /-- `SALT_F5`: the key of f5's first CMAC call (R7, R182). -/
  saltF5 : Octet16
  /-- `KEYID_F5`: the label in f5's second message (R7, R183, `90_conflicts.md` C1). -/
  keyidF5 : Bytes 4
  /-- `LEN_F5`: the length field in f5's second message (R7, R183). -/
  lenF5 : Bytes 2
  /-- `KEYID_TMP_LE2BR`: the intermediate h6 label, LE to BR/EDR (R7, R221). -/
  keyidTmpLe2br : Bytes 4
  /-- `KEYID_TMP_BR2LE`: the intermediate h6 label, BR/EDR to LE (R7, R222, `90_conflicts.md` C2). -/
  keyidTmpBr2le : Bytes 4
  /-- `SALT_TMP_LE2BR`: the intermediate h7 salt, LE to BR/EDR (R7, R221). -/
  saltTmpLe2br : Octet16
  /-- `SALT_TMP_BR2LE`: the intermediate h7 salt, BR/EDR to LE (R7, R222, `90_conflicts.md` C2). -/
  saltTmpBr2le : Octet16
  /-- `KEYID_LEBR`: the final label, LE to BR/EDR (R7, R221). -/
  keyidLebr : Bytes 4
  /-- `KEYID_BRLE`: the final label, BR/EDR to LE (R7, R222). -/
  keyidBrle : Bytes 4
  /-- `G2_MOD`: the modulus of g2 (R7, R186). -/
  g2Mod : Nat
  deriving DecidableEq, Repr

/-- The constraints rule R6 puts on `MSG_MAX` and `BASE`, a multiple of 16 from 80 to 65520 and a multiple of 4, and
the one constant that is "fixed by the document (not open)", "the g2 modulus 1,000,000" (R5). -/
abbrev Config.Valid (c : Config) : Prop :=
  c.msgMax % 16 = 0 ∧ 80 ≤ c.msgMax ∧ c.msgMax ≤ 65520 ∧ c.base % 4 = 0 ∧ c.g2Mod = 1000000

end Sys2Proof
end

