-- ==== Sys2Proof/Machine/Bytes.lean ====
section
/-! DEFINITION. Byte-order helpers: the named conversion `rev` between spec order and toolbox order
(`00_scope.md` rules R9, R11), bytewise xor, and the packing of bytes in words (R52, R110). -/

namespace Sys2Proof.Machine

/-- The sequence whose byte `i` is `f i`. -/
def tabulate {n : Nat} (f : Fin n → Byte) : Bytes n := ⟨(List.ofFn f).toArray, by simp⟩

/-- `rev(b)[i] = b[len(b)-1-i]`: reverses the order of the bytes, never the bits of a byte (R9). It is the one
conversion step between spec order and toolbox order (R11). -/
def rev {n : Nat} (b : Bytes n) : Bytes n :=
  tabulate fun i => b[n - 1 - i.val]'(by omega)

/-- `a xor b` of two sequences of equal length (R9). -/
def xorBytes {n : Nat} (a b : Bytes n) : Bytes n := tabulate fun i => a[i] ^^^ b[i]

/-- The `n` bytes of a number, most significant first: a constant as the spec prints it (R7, R11). -/
def specBytes (n v : Nat) : Bytes n :=
  tabulate fun i => BitVec.ofNat 8 (v >>> (8 * (n - 1 - i.val)))

/-- The first sixteen bytes of a list, filled up with zeros where it is shorter. -/
def toOctet16 (l : List Byte) : Octet16 := tabulate fun i => l.getD i.val 0#8

/-- Byte `k` of a round-key word, `w[31-8k : 24-8k]`: byte 0 is the most significant (R110). -/
def wordByte (w : Word32) (k : Nat) : Byte := w.extractLsb' (24 - 8 * k) 8

/-- `b0<<24 | b1<<16 | b2<<8 | b3`: the word whose bytes 0 to 3 (R110) are the four arguments (R115). -/
def wordOfBytes (b0 b1 b2 b3 : Byte) : Word32 :=
  b0.setWidth 32 <<< 24 ||| b1.setWidth 32 <<< 16 ||| b2.setWidth 32 <<< 8 ||| b3.setWidth 32

/-- The little-endian word of a bus access, `B[off] | B[off+1]<<8 | B[off+2]<<16 | B[off+3]<<24`: the byte at the lowest offset is bits 7:0 (R52, R57). -/
def busWord (b0 b1 b2 b3 : Byte) : Word32 :=
  b0.setWidth 32 ||| b1.setWidth 32 <<< 8 ||| b2.setWidth 32 <<< 16 ||| b3.setWidth 32 <<< 24

/-- Byte `k` of a bus word, `v[8k+7 : 8k]` (R52, R58). -/
def busByte (v : Word32) (k : Nat) : Byte := v.extractLsb' (8 * k) 8

end Sys2Proof.Machine
end

