-- ==== Sys2Proof/Machine/Params.lean ====
section
/-! DEFINITION. The values of the configuration fields: the recipe constants the spec adopts
(`00_scope.md` rule R7) and the values this model takes for the open parameters of rule R6. -/

namespace Sys2Proof.Machine

/-- The constants of R7 at their adopted values (those R7 marks as general knowledge PRESUMED, GK2
to GK5; log entry 6, unsafe), with `MSG_MAX = 256` and `BASE = 0` (DESIGN CHOICE, log entry 1, unsafe: R6 leaves
both open; every statement but those about `State.reset` holds for every value). -/
def adoptedConfig : Config where
  msgMax := 256
  base := 0
  saltF5 := specBytes 16 0x6C888391AAF5A53860370BDB5A6083BE
  keyidF5 := specBytes 4 0x62746C65
  lenF5 := specBytes 2 0x0100
  keyidTmpLe2br := specBytes 4 0x746D7031
  keyidTmpBr2le := specBytes 4 0x746D7032
  saltTmpLe2br := specBytes 16 0x746D7031
  saltTmpBr2le := specBytes 16 0x746D7032
  keyidLebr := specBytes 4 0x6C656272
  keyidBrle := specBytes 4 0x62726C65
  g2Mod := 1000000

/-- The configuration of "a model that wants the document's literals exactly as printed" (R7): "btdk" in f5 and
the one intermediate label "tmp1" in both directions. -/
def documentConfig : Config :=
  { adoptedConfig with
    keyidF5 := specBytes 4 0x6274646B
    keyidTmpBr2le := specBytes 4 0x746D7031
    saltTmpBr2le := specBytes 16 0x746D7031 }

end Sys2Proof.Machine
end

