-- ==== Sys2Proof/Machine/State.lean ====
section
/-! DEFINITION. The state of one engine instance (`10_state.md` rule R20), the host's side of its port, the reasons
a step can stop, and the state after reset (R35, R290). -/

namespace Sys2Proof.Machine

/-- The contents of the input buffer `IB`: pairs of an index of `IB` and the byte there, in one canonical form
(indices strictly rising, no byte equal to `unlistedByte`). -/
abbrev Memory := List Host.Cell

/-- What an index of `IB` that is not listed reads as: the reset contents 0x00 (R35, R290). -/
def unlistedByte : Byte := 0x00#8

/-- One event at the instance's port, in the order the host issues them (R62). -/
inductive HostEvent where
  /-- `MemRead(off, size)` (R12, R55, R57). -/
  | read (off size : Nat)
  /-- `MemWrite(off, size, v)`; a 1-byte write carries `v[7:0]` (R12, R56, R58). -/
  | write (off size : Nat) (v : Word32)
  /-- The platform's hard reset, an event outside the window, between host accesses (R291 (a)). -/
  | hardReset
  deriving DecidableEq, Repr

/-- What a read returned to the host. -/
inductive ReadData where
  /-- The value of a 1-byte read (R55). -/
  | byte (b : Byte)
  /-- The value of a 4-byte read (R57). -/
  | word (w : Word32)
  deriving DecidableEq, Repr

/-- One instance: the parameters no step changes, the state R20 lists ("there is no other"), and the model's own
two fields for the host's side of the port. -/
structure State where
  /-- The instance's parameters and constants (R6, R7). -/
  cfg : Config
  /-- `KEY[0..15]` (R21). -/
  key : Octet16
  /-- `IB[0..MSG_MAX-1]` (R22). -/
  ib : Memory
  /-- `OUT0[0..15]` (R23). -/
  out0 : Octet16
  /-- `OUT1[0..15]` (R24). -/
  out1 : Octet16
  /-- `RES32` (R25). -/
  res32 : Word32
  /-- `RK[0..43]`, the round-key bank (R26). -/
  rk : Vector Word32 44
  /-- `RKV`: `RK` holds a schedule (R27). -/
  rkv : Bool
  /-- `DONE` (R29). -/
  done : Bool
  /-- `ERR` (R29). -/
  err : Bool
  /-- `ESTICKY` (R30). -/
  esticky : Bool
  /-- `V0`: `OUT0` holds a result of the last command (R31). -/
  v0 : Bool
  /-- `V1`: `OUT1` holds a result of the last command (R31). -/
  v1 : Bool
  /-- `VR`: `RES32` holds a result of the last command (R31). -/
  vr : Bool
  /-- `ECODE`: the refusal code of the last command (R31, R251). -/
  ecode : Byte
  /-- `LASTOP`: the opcode byte of the last command word (R31). -/
  lastop : Byte
  /-- The MODEL's own: host events issued and not yet performed, in issue order (R62; log entry 2). -/
  pending : List HostEvent
  /-- The MODEL's own: what the last event returned, if it was a read (R55, R57; log entry 4). -/
  rdata : Option ReadData
  deriving DecidableEq, Repr

/-- Why the machine stops with a fault: NOTHING raises one. The spec's only exception is the refusal recorded in
`STATUS`, after which the machine goes on (R250, R257), so this type has no constructor (log entry 11, safe). -/
inductive Fault where
  deriving DecidableEq, Repr

/-- Why a step gives no next state. -/
inductive Refusal where
  /-- Raised by `exec`'s arm of an instruction that has no meaning yet; no arm uses it in this model (safe). -/
  | notModelled (mnemonic : String)
  /-- Raised by `hostEvent` for an access that is none of the four legal forms: "A model *refuses* a host program
  that makes one (it gives the access no meaning); it must not return a value for it" (R59). Safe: the hardware
  changes no state and goes on, the model stops. -/
  | illegalAccess (e : HostEvent)
  deriving DecidableEq, Repr

/-- The state after reset (R35, R290). The parameters are `adoptedConfig` (log entries 1, 6); no host event is
pending and none has returned a value (DESIGN CHOICE, log entries 2, 4). -/
def State.reset : State where
  cfg := adoptedConfig
  key := zero128
  ib := []
  out0 := zero128
  out1 := zero128
  res32 := 0#32
  rk := Vector.replicate 44 0#32
  rkv := false
  done := false
  err := false
  esticky := false
  v0 := false
  v1 := false
  vr := false
  ecode := 0x00#8
  lastop := 0x00#8
  pending := []
  rdata := none

end Sys2Proof.Machine
end

