-- ==== Sys2Proof/Machine/Flags.lean ====
section
/-! DEFINITION. The status flags: the refusal codes (`60_exceptions.md` rule R251), the function `Check` (R252), and
the words the control registers read as (`10_state.md` rules R28, R32). -/

namespace Sys2Proof.Machine

/-- `E_NONE`: the last command was executed, or none yet (R251). -/
def eNone : Byte := 0x00#8
/-- `E_OPCODE`: `OP` is none of the sixteen opcodes (R251). -/
def eOpcode : Byte := 0x01#8
/-- `E_RSVD`: a field the command does not use is not zero (R251). -/
def eRsvd : Byte := 0x02#8
/-- `E_KEYLEN`: `SETKEY` with `LEN != 16` (R251). -/
def eKeyLen : Byte := 0x03#8
/-- `E_MSGLEN`: `CMAC` with `LEN > MSG_MAX` (R251). -/
def eMsgLen : Byte := 0x04#8
/-- `E_NOKEY`: `ENCRYPT` with `RKV = 0` (R251). -/
def eNoKey : Byte := 0x05#8

/-- The refusal code of a word that spells no command (R85). -/
def decodeErrorCode : DecodeError → Byte
  | .unassignedOpcode => eOpcode
  | .reservedFieldSet => eRsvd

/-- The sixteen values of `OP` that spell a command (R252 step 1). -/
def isOpcode (op : Byte) : Bool :=
  decide (0x01 ≤ op.toNat ∧ op.toNat ≤ 0x07) || decide (0x10 ≤ op.toNat ∧ op.toNat ≤ 0x16)
    || op == 0x18#8 || op == 0x19#8

/-- `Check(c)` in the fixed order of R252: it reads only the word, `MSG_MAX` and `RKV`. The machine itself does
steps 1 to 4 in `decode` and steps 5 to 7 in the three meanings they concern; that the two agree is a claim. -/
def check (c : Word32) (s : State) : Byte :=
  if !isOpcode (opField c) then eOpcode
  else if rsvField c ≠ 0#7 then eRsvd
  else if h7Field c && !(opField c == 0x18#8 || opField c == 0x19#8) then eRsvd
  else if lenField c ≠ 0 && !(opField c == 0x01#8 || opField c == 0x04#8) then eRsvd
  else if opField c == 0x01#8 && lenField c ≠ 16 then eKeyLen
  else if opField c == 0x04#8 && decide (s.cfg.msgMax < lenField c) then eMsgLen
  else if opField c == 0x02#8 && !s.rkv then eNoKey
  else eNone

/-- One flag at bit `k` of a word. -/
def flagBit (b : Bool) (k : Nat) : Word32 := (BitVec.ofBool b).setWidth 32 <<< k

/-- What a read of `STATUS` returns (R28). -/
def statusWord (s : State) : Word32 :=
  flagBit s.done 0 ||| flagBit s.err 1 ||| flagBit s.esticky 2 ||| flagBit s.rkv 3 ||| flagBit s.v0 4
    ||| flagBit s.v1 5 ||| flagBit s.vr 6 ||| s.ecode.setWidth 32 <<< 8 ||| s.lastop.setWidth 32 <<< 16

/-- What a read of `CAP` returns: `MSG_MAX | 0x01 << 16` (R32, R290). -/
def capWord (cfg : Config) : Word32 := BitVec.ofNat 32 cfg.msgMax ||| 0x01#32 <<< 16

end Sys2Proof.Machine
end

