-- ==== Sys2Proof/Machine/Ops.lean ====
section
/-! DEFINITION. The named operations over the buffer `IB` and the registers: reading and writing one byte of `IB`,
the parts of the command frame (`30_encoding.md` rule R84), the refusal (`60_exceptions.md` rule R254) and
`Reset()` (`70_reset_and_hazards.md` rule R290). -/

namespace Sys2Proof.Machine

/-- The canonical form of `IB`'s contents: indices strictly rising and no byte listed that reads so unlisted. -/
abbrev Memory.wf (m : Memory) : Prop :=
  m.Pairwise (fun x y => x.1 < y.1) ∧ ∀ cell ∈ m, cell.2 ≠ unlistedByte

/-- `IB[i]`. -/
def Memory.read : Memory → Nat → Byte
  | [], _ => unlistedByte
  | (a, b) :: m, i => if a = i then b else Memory.read m i

/-- `IB[i] <- v`, keeping the canonical form: writing `unlistedByte` takes the entry out. -/
def Memory.write : Memory → Nat → Byte → Memory
  | [], i, v => if v = unlistedByte then [] else [(i, v)]
  | (a, b) :: m, i, v =>
    if a < i then (a, b) :: Memory.write m i v
    else if a = i then (if v = unlistedByte then m else (i, v) :: m)
    else if v = unlistedByte then (a, b) :: m
    else (i, v) :: (a, b) :: m

/-- The frame's first part: the three results and their valid flags to zero (R84, R31). -/
def clearResults (s : State) : State :=
  { s with out0 := zero128, out1 := zero128, res32 := 0#32, v0 := false, v1 := false, vr := false }

/-- The frame of an executed command other than `CLR`, up to its rule: results zeroed, `LASTOP <- OP`,
`ECODE <- E_NONE`, `DONE <- 1`, `ERR <- 0`; `ESTICKY` unchanged (R84). -/
def beginCommand (op : Byte) (s : State) : State :=
  { clearResults s with lastop := op, ecode := eNone, done := true, err := false }

/-- `raise Refuse(code)`, the engine's only exception: results zeroed, `LASTOP <- OP`, `ECODE <- code`,
`DONE <- 0`, `ERR <- 1`, `ESTICKY <- 1`; `KEY`, `IB`, `RK`, `RKV` unchanged (R254). Control goes nowhere and
there is nothing to return from (R250, R257). -/
def refuse (op code : Byte) (s : State) : State :=
  { clearResults s with lastop := op, ecode := code, done := false, err := true, esticky := true }

/-- `Reset()`: every element of R20 to its reset value (R290). The parameters are no state and the host's side of
the port is not the engine's, so `cfg`, `pending` and `rdata` stay. -/
def resetEngine (s : State) : State :=
  { State.reset with cfg := s.cfg, pending := s.pending, rdata := s.rdata }

/-- `OUT0[0..15] <- v ; V0 <- 1` (R23, R87). -/
def putOut0 (v : Octet16) (s : State) : State := { s with out0 := v, v0 := true }

/-- `OUT1[0..15] <- v ; V1 <- 1` (R24, R87). -/
def putOut1 (v : Octet16) (s : State) : State := { s with out1 := v, v1 := true }

/-- `RES32 <- v ; VR <- 1` (R25, R87). -/
def putRes32 (v : Word32) (s : State) : State := { s with res32 := v, vr := true }

/-- `RK[0..43] <- w ; RKV <- 1` (R26, R27, R122). -/
def putSchedule (w : Vector Word32 44) (s : State) : State := { s with rk := w, rkv := true }

end Sys2Proof.Machine
end

