-- ==== Sys2Proof/Machine/Operands.lean ====
section
/-! DEFINITION. The operand slots of `30_encoding.md` rule R86 in the two byte orders of `20_memory.md` rule R53. -/

namespace Sys2Proof.Machine

/-- `KEY[0..15]` in AES order: the bytes as they stand (R53 (a)). -/
def keyAes (s : State) : Octet16 := s.key

/-- `rev(KEY[0..15])`: the key-role operand of a toolbox command in spec order (R53 (b)). -/
def keySpec (s : State) : Octet16 := rev s.key

/-- `IB[lo..lo+n-1]` as the bytes stand (R53 (a)). -/
def slotAes (n lo : Nat) (s : State) : Bytes n := tabulate fun i => s.ib.read (lo + i.val)

/-- `rev(IB[lo..lo+n-1])`: a field of a toolbox command in spec order, each slot reversed by itself
(R53 (b), R86). -/
def slotSpec (n lo : Nat) (s : State) : Bytes n := rev (slotAes n lo s)

/-- `rev(IB[0..len-1])`, `M[i] = IB[len-1-i]`: the CMAC message, reversed as one whole (R53 (b), R159). -/
def messageSpec (len : Nat) (s : State) : List Byte :=
  (List.range len).map fun i => s.ib.read (len - 1 - i)

end Sys2Proof.Machine
end

