-- ==== Sys2Proof/Machine/Aes.lean ====
section
/-! DEFINITION. The AES-128 key scheduler and cipher (`40_aes128.md` rules R110 to R121) and the commands `SETKEY`,
`ENCRYPT`, `AES128` (R122 to R124). The tables are the spec's own, which marks them as general knowledge
(`93_implementation_defined.md` GK1; log entry 7). -/

namespace Sys2Proof.Machine

/-- Multiplication by x in GF(2^8) modulo 0x11B (R111). -/
def xtime (b : Byte) : Byte := if b.getLsbD 7 then (b <<< 1) ^^^ 0x1B#8 else b <<< 1

/-- The xor, over the bits of `b` from bit 0 of what is left, of `xtime` applied to the current multiple of `a`;
`n` is how many bits are left. -/
def gmulBits : Nat → Byte → Byte → Byte
  | 0, _, _ => 0#8
  | n + 1, a, b => (if b.getLsbD 0 then a else 0#8) ^^^ gmulBits n (xtime a) (b >>> 1)

/-- The product in GF(2^8): "the xor, over every bit i of b that is 1, of `xtime` applied i times to a" (R111). -/
def gmul (a b : Byte) : Byte := gmulBits 8 a b

/-- The S-box table, row 0x first and column 0 first in each row, as R113 prints it. -/
def sboxTable : BitVec 2048 :=
  0x637c777bf26b6fc53001672bfed7ab76#128 ++
  0xca82c97dfa5947f0add4a2af9ca472c0#128 ++
  0xb7fd9326363ff7cc34a5e5f171d83115#128 ++
  0x04c723c31896059a071280e2eb27b275#128 ++
  0x09832c1a1b6e5aa0523bd6b329e32f84#128 ++
  0x53d100ed20fcb15b6acbbe394a4c58cf#128 ++
  0xd0efaafb434d338545f9027f503c9fa8#128 ++
  0x51a3408f929d38f5bcb6da2110fff3d2#128 ++
  0xcd0c13ec5f974417c4a77e3d645d1973#128 ++
  0x60814fdc222a908846eeb814de5e0bdb#128 ++
  0xe0323a0a4906245cc2d3ac629195e479#128 ++
  0xe7c8376d8dd54ea96c56f4ea657aae08#128 ++
  0xba78252e1ca6b4c6e8dd741f4bbd8b8a#128 ++
  0x703eb5664803f60e613557b986c11d9e#128 ++
  0xe1f8981169d98e949b1e87e9ce5528df#128 ++
  0x8ca1890dbfe6426841992d0fb054bb16#128

/-- `SBOX[a]`, byte number `a` of the table from its start (R113). -/
def sbox (a : Byte) : Byte := sboxTable.extractLsb' (8 * (255 - a.toNat)) 8

/-- The affine step of the algebraic S-box:
`x xor rotl8(x,1) xor rotl8(x,2) xor rotl8(x,3) xor rotl8(x,4) xor 0x63` (R112). -/
def sboxAffine (x : Byte) : Byte :=
  x ^^^ x.rotateLeft 1 ^^^ x.rotateLeft 2 ^^^ x.rotateLeft 3 ^^^ x.rotateLeft 4 ^^^ 0x63#8

/-- `RCON[j]`: `RCON[1] = 0x01`, `RCON[j+1] = xtime(RCON[j])` (R114). Index 0 is no round constant and is never
read. -/
def rcon : Nat → Byte
  | 0 => 0x00#8
  | 1 => 0x01#8
  | j + 2 => xtime (rcon (j + 1))

/-- `RotWord(t)`: bytes 0,1,2,3 become bytes 1,2,3,0 (R115). -/
def rotWord (t : Word32) : Word32 :=
  wordOfBytes (wordByte t 1) (wordByte t 2) (wordByte t 3) (wordByte t 0)

/-- `SubWord(t)`: the S-box on each of the four bytes separately (R115). -/
def subWord (t : Word32) : Word32 :=
  wordOfBytes (sbox (wordByte t 0)) (sbox (wordByte t 1)) (sbox (wordByte t 2)) (sbox (wordByte t 3))

/-- What is xored to `w[i-4]` to give `w[i]`, from `t = w[i-1]`: on every fourth word rotated, substituted and with
the round constant in its most significant byte (R115). -/
def scheduleTerm (i : Nat) (t : Word32) : Word32 :=
  if i % 4 = 0 then subWord (rotWord t) ^^^ wordOfBytes (rcon (i / 4)) 0#8 0#8 0#8 else t

/-- The words `w[i], w[i+1], ...`, `n` of them, from the four before them, `a = w[i-4]` to `d = w[i-1]`: the
recurrence `w[i] = w[i-4] xor t` (R115). -/
def scheduleFrom : (n i : Nat) → (a b c d : Word32) → List Word32
  | 0, _, _, _, _, _ => []
  | n + 1, i, a, b, c, d => (a ^^^ scheduleTerm i d) :: scheduleFrom n (i + 1) b c d (a ^^^ scheduleTerm i d)

/-- The recurrence gives as many words as asked for. -/
theorem scheduleFrom_length (n i : Nat) (a b c d : Word32) : (scheduleFrom n i a b c d).length = n := by
  induction n generalizing i a b c d with
  | zero => rfl
  | succ n ih => simp [scheduleFrom, ih]

/-- The first four words of the schedule, `w[i] = key[4i]<<24 | ... | key[4i+3]` (R115). -/
def keyWord (key : Octet16) (i : Fin 4) : Word32 :=
  wordOfBytes key[4 * i.val] key[4 * i.val + 1] key[4 * i.val + 2] key[4 * i.val + 3]

/-- `KeyExpansion(key)`, the 44 words of the round-key schedule (R115). -/
def keyExpansion (key : Octet16) : Vector Word32 44 :=
  ⟨(keyWord key 0 :: keyWord key 1 :: keyWord key 2 :: keyWord key 3 ::
      scheduleFrom 40 4 (keyWord key 0) (keyWord key 1) (keyWord key 2) (keyWord key 3)).toArray,
    by simp [scheduleFrom_length]⟩

/-- `AddRoundKey(s, w, r)`: `s'[4c+k] = s[4c+k] xor byte k of w[4r+c]` (R116). -/
def addRoundKey (s : Octet16) (w : Vector Word32 44) (r : Fin 11) : Octet16 :=
  tabulate fun i => s[i] ^^^ wordByte (w[4 * r.val + i.val / 4]'(by omega)) (i.val % 4)

/-- `SubBytes(s)` (R117). -/
def subBytes (s : Octet16) : Octet16 := tabulate fun i => sbox s[i]

/-- `ShiftRows(s)`: `s'[4c+r] = s[4((c+r) mod 4) + r]` (R118). -/
def shiftRows (s : Octet16) : Octet16 :=
  tabulate fun i => s[4 * ((i.val / 4 + i.val % 4) % 4) + i.val % 4]'(by omega)

/-- `gmul(2, b) = xtime(b)` (R111). -/
def mul2 (b : Byte) : Byte := xtime b

/-- `gmul(3, b) = xtime(b) xor b` (R111). -/
def mul3 (b : Byte) : Byte := xtime b ^^^ b

/-- One column of `MixColumns` at row `k`: the row of the matrix `02 03 01 01 / 01 02 03 01 / 01 01 02 03 /
03 01 01 02` times the column (R119). -/
def mixRow (k : Nat) (a0 a1 a2 a3 : Byte) : Byte :=
  match k with
  | 0 => mul2 a0 ^^^ mul3 a1 ^^^ a2 ^^^ a3
  | 1 => a0 ^^^ mul2 a1 ^^^ mul3 a2 ^^^ a3
  | 2 => a0 ^^^ a1 ^^^ mul2 a2 ^^^ mul3 a3
  | _ => mul3 a0 ^^^ a1 ^^^ a2 ^^^ mul2 a3

/-- `MixColumns(s)`, column by column (R119). -/
def mixColumns (s : Octet16) : Octet16 :=
  tabulate fun i =>
    mixRow (i.val % 4) (s[4 * (i.val / 4)]'(by omega)) (s[4 * (i.val / 4) + 1]'(by omega))
      (s[4 * (i.val / 4) + 2]'(by omega)) (s[4 * (i.val / 4) + 3]'(by omega))

/-- One of the 9 full rounds (R120). -/
def fullRound (w : Vector Word32 44) (s : Octet16) (r : Fin 11) : Octet16 :=
  addRoundKey (mixColumns (shiftRows (subBytes s))) w r

/-- `Cipher(w, in)`: the initial AddRoundKey, 9 full rounds, and 1 final round without MixColumns (R120). -/
def cipher (w : Vector Word32 44) (block : Octet16) : Octet16 :=
  let s := [1, 2, 3, 4, 5, 6, 7, 8, 9].foldl (fullRound w) (addRoundKey block w 0)
  addRoundKey (shiftRows (subBytes s)) w 10

/-- `AES_ENC(key, block) = Cipher(KeyExpansion(key), block)` (R121). -/
def aesEnc (key block : Octet16) : Octet16 := cipher (keyExpansion key) block

/-- The rule of `SETKEY` (R122). -/
def ruleSetkey (s : State) : State := putSchedule (keyExpansion (keyAes s)) s

/-- The rule of `ENCRYPT`; no reversal (R123). -/
def ruleEncrypt (s : State) : State := putOut0 (cipher s.rk (slotAes 16 0 s)) s

/-- The rule of `AES128`: a transient schedule, toolbox order (R124). -/
def ruleAes128 (s : State) : State := putOut0 (rev (aesEnc (keySpec s) (slotSpec 16 0 s))) s

/-- `SETKEY len`: refused with `E_KEYLEN` unless the length is 16, the bank then kept (R122, R252 step 5). -/
def execSetkey (len : Nat) (s : State) : Host.Outcome State Fault Refusal :=
  if len ≠ 16 then .next (refuse 0x01#8 eKeyLen s) else .next (ruleSetkey (beginCommand 0x01#8 s))

/-- `ENCRYPT`: refused with `E_NOKEY` when no schedule is loaded (R123, R252 step 7). -/
def execEncrypt (s : State) : Host.Outcome State Fault Refusal :=
  if s.rkv then .next (ruleEncrypt (beginCommand 0x02#8 s)) else .next (refuse 0x02#8 eNoKey s)

/-- `AES128` (R124). -/
def execAes128 (s : State) : Host.Outcome State Fault Refusal :=
  .next (ruleAes128 (beginCommand 0x03#8 s))

end Sys2Proof.Machine
end

