-- ==== Sys2Proof/Machine/Cmac.lean ====
section
/-! DEFINITION. The GF(2^128) doubler, the CMAC subkeys and the CBC-MAC pipeline (`41_cmac.md` rules R150 to R155)
and the commands `DBL`, `SUBKEY`, `CMAC` (R157 to R159). -/

namespace Sys2Proof.Machine

/-- `double(x)`, byte 0 most significant: the bit shifted out of byte `i+1` enters byte `i`, and `0x87` is xored into
byte 15 when the input's top bit is set (R150). -/
def double (x : Octet16) : Octet16 :=
  tabulate fun i =>
    if h : i.val < 15 then (x[i.val] <<< 1) ||| (x[i.val + 1] >>> 7)
    else if x[0].getLsbD 7 then (x[15] <<< 1) ^^^ 0x87#8
    else x[15] <<< 1

/-- `L = AES_ENC(key, 0^128)` (R151). -/
def cmacL (key : Octet16) : Octet16 := aesEnc key zero128

/-- `K1 = double(L)` (R151). -/
def subkey1 (key : Octet16) : Octet16 := double (cmacL key)

/-- `K2 = double(K1)`, a second application of the doubler (R151, R156 (c)). -/
def subkey2 (key : Octet16) : Octet16 := double (subkey1 key)

/-- `n = max(1, ceil(len/16))`, how many blocks a message has (R153). -/
def blockCount (len : Nat) : Nat := max 1 ((len + 15) / 16)

/-- Block `i + 1` of the message, `M[16i .. 16i+15]` (R153). -/
def messageBlock (m : List Byte) (i : Nat) : Octet16 := toOctet16 ((m.drop (16 * i)).take 16)

/-- The last block, `M[16(n-1) .. len-1]`, 0 to 16 bytes (R153). -/
def lastBlock (m : List Byte) : List Byte := m.drop (16 * (blockCount m.length - 1))

/-- The final block `F`: a full last block masked with `K1`, otherwise the last block padded with `0x80` and zeros and
masked with `K2` (R154). -/
def finalBlock (k1 k2 : Octet16) (m : List Byte) : Octet16 :=
  if m.length > 0 ∧ m.length % 16 = 0 then xorBytes (toOctet16 (lastBlock m)) k1
  else xorBytes (toOctet16 (lastBlock m ++ [0x80#8] ++ List.replicate (15 - (lastBlock m).length) 0#8)) k2

/-- `X_i` of the CBC chain: `X_0 = 0^128`, `X_i = AES_ENC(key, X_{i-1} xor block_i)` (R155). -/
def cbcChain (key : Octet16) (m : List Byte) : Nat → Octet16
  | 0 => zero128
  | i + 1 => aesEnc key (xorBytes (cbcChain key m i) (messageBlock m i))

/-- `CMAC(key, M)` for every message length (R152). -/
def cmac (key : Octet16) (m : List Byte) : Octet16 :=
  aesEnc key
    (xorBytes (cbcChain key m (blockCount m.length - 1)) (finalBlock (subkey1 key) (subkey2 key) m))

/-- The rule of `DBL` (R157). -/
def ruleDbl (s : State) : State := putOut0 (rev (double (slotSpec 16 0 s))) s

/-- The rule of `SUBKEY`: K1 to `OUT0`, K2 to `OUT1` (R158). -/
def ruleSubkey (s : State) : State :=
  putOut1 (rev (subkey2 (keySpec s))) (putOut0 (rev (subkey1 (keySpec s))) s)

/-- The rule of `CMAC` (R159). -/
def ruleCmac (len : Nat) (s : State) : State := putOut0 (rev (cmac (keySpec s) (messageSpec len s))) s

/-- `DBL` (R157). -/
def execDbl (s : State) : Host.Outcome State Fault Refusal :=
  .next (ruleDbl (beginCommand 0x05#8 s))

/-- `SUBKEY` (R158). -/
def execSubkey (s : State) : Host.Outcome State Fault Refusal :=
  .next (ruleSubkey (beginCommand 0x06#8 s))

/-- `CMAC len`: refused with `E_MSGLEN` when the buffer cannot hold the message (R159, R252 step 6). -/
def execCmac (len : Nat) (s : State) : Host.Outcome State Fault Refusal :=
  if s.cfg.msgMax < len then .next (refuse 0x04#8 eMsgLen s)
  else .next (ruleCmac len (beginCommand 0x04#8 s))

end Sys2Proof.Machine
end

