-- ==== Sys2Proof/Machine/Derivation.lean ====
section
/-! DEFINITION. The derivation recipes f4, f5, f6, g2, h6, h7, ah in spec order (`42_derivation.md` rules R181 to R190)
and the commands `F4`, `F5`, `F6`, `G2`, `H6`, `H7`, `AH` (R191 to R197). -/

namespace Sys2Proof.Machine

/-- The message of f4, `U || V || Z` (R181). -/
def f4Message (u v : Bytes 32) (z : Bytes 1) : List Byte := u.toList ++ v.toList ++ z.toList

/-- `f4(U, V, X, Z) = CMAC(X, U || V || Z)` (R181). -/
def f4 (u v : Bytes 32) (x : Octet16) (z : Bytes 1) : Octet16 := cmac x (f4Message u v z)

/-- f5 step 1, `T = CMAC(SALT_F5, W)` (R182). -/
def f5Key (cfg : Config) (w : Bytes 32) : Octet16 := cmac cfg.saltF5 w.toList

/-- The message of f5 step 2, `counter || KEYID_F5 || N1 || N2 || A1 || A2 || LEN_F5` (R183). -/
def f5Message (cfg : Config) (counter : Byte) (n1 n2 : Octet16) (a1 a2 : Bytes 7) : List Byte :=
  [counter] ++ cfg.keyidF5.toList ++ n1.toList ++ n2.toList ++ a1.toList ++ a2.toList ++ cfg.lenF5.toList

/-- `f5(W, N1, N2, A1, A2) = (MacKey, LTK)`: the outputs for counter 0x00 and 0x01 under the one key `T`
(R184). -/
def f5 (cfg : Config) (w : Bytes 32) (n1 n2 : Octet16) (a1 a2 : Bytes 7) : Octet16 × Octet16 :=
  (cmac (f5Key cfg w) (f5Message cfg 0x00#8 n1 n2 a1 a2), cmac (f5Key cfg w) (f5Message cfg 0x01#8 n1 n2 a1 a2))

/-- The message of f6, `N1 || N2 || R || IOcap || A1 || A2` (R185). -/
def f6Message (n1 n2 r : Octet16) (iocap : Bytes 3) (a1 a2 : Bytes 7) : List Byte :=
  n1.toList ++ n2.toList ++ r.toList ++ iocap.toList ++ a1.toList ++ a2.toList

/-- `f6(W, N1, N2, R, IOcap, A1, A2)` (R185). -/
def f6 (w n1 n2 r : Octet16) (iocap : Bytes 3) (a1 a2 : Bytes 7) : Octet16 :=
  cmac w (f6Message n1 n2 r iocap a1 a2)

/-- The message of g2, `U || V || Y` (R186). -/
def g2Message (u v : Bytes 32) (y : Octet16) : List Byte := u.toList ++ v.toList ++ y.toList

/-- The last four bytes of a MAC as an unsigned integer, most significant first: g2's `raw` (R186). -/
def g2Raw (mac : Octet16) : Nat :=
  mac[12].toNat * 2 ^ 24 + mac[13].toNat * 2 ^ 16 + mac[14].toNat * 2 ^ 8 + mac[15].toNat

/-- `g2(U, V, X, Y)`: `raw mod G2_MOD` (R186, R7). -/
def g2 (cfg : Config) (u v : Bytes 32) (x y : Octet16) : Nat := g2Raw (cmac x (g2Message u v y)) % cfg.g2Mod

/-- `h6(W, keyID) = CMAC(W, keyID)`: the secret is the key (R187, R189). -/
def h6 (w : Octet16) (keyId : Bytes 4) : Octet16 := cmac w keyId.toList

/-- `h7(SALT, W) = CMAC(SALT, W)`: the secret is the message (R188, R189). -/
def h7 (salt w : Octet16) : Octet16 := cmac salt w.toList

/-- `r = (00)^13 || prand`, the zero-extension of ah (R190). -/
def ahBlock (prand : Bytes 3) : Octet16 := toOctet16 (List.replicate 13 0#8 ++ prand.toList)

/-- `ah(IRK, prand)`: the three least significant bytes of one direct AES call (R190). -/
def ah (irk : Octet16) (prand : Bytes 3) : Bytes 3 :=
  tabulate fun i => (aesEnc irk (ahBlock prand))[13 + i.val]

/-- `OUT0[0..2]` from three bytes, `OUT0[3..15] = (00)^13` (R197). -/
def lowBytes3 (b : Bytes 3) : Octet16 := toOctet16 b.toList

/-- The rule of `F4` (R191). -/
def ruleF4 (s : State) : State :=
  putOut0 (rev (f4 (slotSpec 32 0 s) (slotSpec 32 32 s) (keySpec s) (slotAes 1 64 s))) s

/-- The result of `F5` from its slots (R192). -/
def f5OfSlots (s : State) : Octet16 × Octet16 :=
  f5 s.cfg (slotSpec 32 0 s) (slotSpec 16 32 s) (slotSpec 16 48 s) (slotSpec 7 64 s) (slotSpec 7 72 s)

/-- The rule of `F5`: MacKey to `OUT0`, LTK to `OUT1` (R192). -/
def ruleF5 (s : State) : State := putOut1 (rev (f5OfSlots s).2) (putOut0 (rev (f5OfSlots s).1) s)

/-- The rule of `F6` (R193). -/
def ruleF6 (s : State) : State :=
  putOut0 (rev (f6 (keySpec s) (slotSpec 16 0 s) (slotSpec 16 16 s) (slotSpec 16 32 s) (slotSpec 3 48 s)
    (slotSpec 7 56 s) (slotSpec 7 64 s))) s

/-- The rule of `G2`: only `RES32` (R194). -/
def ruleG2 (s : State) : State :=
  putRes32 (BitVec.ofNat 32 (g2 s.cfg (slotSpec 32 0 s) (slotSpec 32 32 s) (keySpec s) (slotSpec 16 64 s))) s

/-- The rule of `H6` (R195). -/
def ruleH6 (s : State) : State := putOut0 (rev (h6 (keySpec s) (slotSpec 4 0 s))) s

/-- The rule of `H7` (R196). -/
def ruleH7 (s : State) : State := putOut0 (rev (h7 (keySpec s) (slotSpec 16 0 s))) s

/-- The rule of `AH` (R197). -/
def ruleAh (s : State) : State := putOut0 (lowBytes3 (rev (ah (keySpec s) (slotSpec 3 0 s)))) s

/-- `F4` (R191). -/
def execF4 (s : State) : Host.Outcome State Fault Refusal := .next (ruleF4 (beginCommand 0x10#8 s))

/-- `F5` (R192). -/
def execF5 (s : State) : Host.Outcome State Fault Refusal := .next (ruleF5 (beginCommand 0x11#8 s))

/-- `F6` (R193). -/
def execF6 (s : State) : Host.Outcome State Fault Refusal := .next (ruleF6 (beginCommand 0x12#8 s))

/-- `G2` (R194). -/
def execG2 (s : State) : Host.Outcome State Fault Refusal := .next (ruleG2 (beginCommand 0x13#8 s))

/-- `H6` (R195). -/
def execH6 (s : State) : Host.Outcome State Fault Refusal := .next (ruleH6 (beginCommand 0x14#8 s))

/-- `H7` (R196). -/
def execH7 (s : State) : Host.Outcome State Fault Refusal := .next (ruleH7 (beginCommand 0x15#8 s))

/-- `AH` (R197). -/
def execAh (s : State) : Host.Outcome State Fault Refusal := .next (ruleAh (beginCommand 0x16#8 s))

end Sys2Proof.Machine
end

