-- ==== Sys2Proof/Machine/KeyConv.lean ====
section
/-! DEFINITION. The key conversions (`43_keyconv.md` rules R220 to R222) and the commands `LTK2LK`, `LK2LTK`
(R224, R225). -/

namespace Sys2Proof.Machine

/-- `KeyConv(input, use_h7, SALT_TMP, KEYID_TMP, LABEL)`: the intermediate key by h7 or by h6, then the final h6
(R220). -/
def keyConv (input : Octet16) (useH7 : Bool) (saltTmp : Octet16) (keyidTmp label : Bytes 4) : Octet16 :=
  h6 (if useH7 then h7 saltTmp input else h6 input keyidTmp) label

/-- `ltk_to_link_key(ltk, use_h7)` (R221). -/
def ltkToLinkKey (cfg : Config) (ltk : Octet16) (useH7 : Bool) : Octet16 :=
  keyConv ltk useH7 cfg.saltTmpLe2br cfg.keyidTmpLe2br cfg.keyidLebr

/-- `link_key_to_ltk(link_key, use_h7)` (R222). -/
def linkKeyToLtk (cfg : Config) (linkKey : Octet16) (useH7 : Bool) : Octet16 :=
  keyConv linkKey useH7 cfg.saltTmpBr2le cfg.keyidTmpBr2le cfg.keyidBrle

/-- The rule of `LTK2LK` (R224). -/
def ruleLtk2lk (useH7 : Bool) (s : State) : State :=
  putOut0 (rev (ltkToLinkKey s.cfg (slotSpec 16 0 s) useH7)) s

/-- The rule of `LK2LTK` (R225). -/
def ruleLk2ltk (useH7 : Bool) (s : State) : State :=
  putOut0 (rev (linkKeyToLtk s.cfg (slotSpec 16 0 s) useH7)) s

/-- `LTK2LK` (R224). -/
def execLtk2lk (useH7 : Bool) (s : State) : Host.Outcome State Fault Refusal :=
  .next (ruleLtk2lk useH7 (beginCommand 0x18#8 s))

/-- `LK2LTK` (R225). -/
def execLk2ltk (useH7 : Bool) (s : State) : Host.Outcome State Fault Refusal :=
  .next (ruleLk2ltk useH7 (beginCommand 0x19#8 s))

end Sys2Proof.Machine
end

