-- ==== Sys2Proof/Machine/System.lean ====
section
/-! DEFINITION. The one system command, `CLR` (`44_system.md` rules R240, R241). -/

namespace Sys2Proof.Machine

/-- `CLR`: `Reset()`, without the frame's usual bookkeeping (R240, R84). -/
def execClr (s : State) : Host.Outcome State Fault Refusal := .next (resetEngine s)

end Sys2Proof.Machine
end

