-- ==== Sys2Proof/Machine/Dispatch.lean ====
section
/-! DEFINITION. Which meaning each command has (`30_encoding.md` rule R83). -/

namespace Sys2Proof.Machine

/-- The meaning of a command: its part of the frame of R84 and its rule. -/
def exec (i : Instr) (s : State) : Host.Outcome State Fault Refusal :=
  match i with
  | .setkey len => Sys2Proof.Machine.execSetkey len s
  | .encrypt => Sys2Proof.Machine.execEncrypt s
  | .aes128 => Sys2Proof.Machine.execAes128 s
  | .cmac len => Sys2Proof.Machine.execCmac len s
  | .dbl => Sys2Proof.Machine.execDbl s
  | .subkey => Sys2Proof.Machine.execSubkey s
  | .clr => Sys2Proof.Machine.execClr s
  | .f4 => Sys2Proof.Machine.execF4 s
  | .f5 => Sys2Proof.Machine.execF5 s
  | .f6 => Sys2Proof.Machine.execF6 s
  | .g2 => Sys2Proof.Machine.execG2 s
  | .h6 => Sys2Proof.Machine.execH6 s
  | .h7 => Sys2Proof.Machine.execH7 s
  | .ah => Sys2Proof.Machine.execAh s
  | .ltk2lk useH7 => Sys2Proof.Machine.execLtk2lk useH7 s
  | .lk2ltk useH7 => Sys2Proof.Machine.execLk2ltk useH7 s

end Sys2Proof.Machine
end

