-- ==== Sys2Proof/Machine/Window.lean ====
section
/-! DEFINITION. The register window: the map of `20_memory.md` rule R51, which accesses are legal (R55 to R59), and
what a legal read returns and a legal write changes, the write of `CMD` apart (R52, R55 to R58). -/

namespace Sys2Proof.Machine

/-- The rows of the window map (R51). -/
inductive Region where
  /-- 0x000-0x003: `CMD`, a doorbell. -/
  | cmd
  /-- 0x004-0x007: `STATUS`. -/
  | status
  /-- 0x008-0x00B: `CAP`. -/
  | cap
  /-- 0x00C-0x00F: `RES32`. -/
  | res32
  /-- 0x010-0x01F: `KEY[0..15]`. -/
  | key
  /-- 0x020-0x02F: `OUT0[0..15]`. -/
  | out0
  /-- 0x030-0x03F: `OUT1[0..15]`. -/
  | out1
  /-- 0x040-0x0FF: no register (R59). -/
  | reserved
  /-- 0x100 to 0x100+MSG_MAX-1: `IB`. -/
  | ib
  /-- At or above 0x100+MSG_MAX: outside the window (R59). -/
  | outside
  deriving DecidableEq, Repr

/-- `region(off)`, the row of R51 that contains the offset. -/
def regionOf (msgMax off : Nat) : Region :=
  if off < 0x004 then .cmd
  else if off < 0x008 then .status
  else if off < 0x00C then .cap
  else if off < 0x010 then .res32
  else if off < 0x020 then .key
  else if off < 0x030 then .out0
  else if off < 0x040 then .out1
  else if off < 0x100 then .reserved
  else if off < 0x100 + msgMax then .ib
  else .outside

/-- The regions of kind `bytes` (R51). -/
def Region.isBytes : Region → Bool
  | .key => true
  | .out0 => true
  | .out1 => true
  | .ib => true
  | _ => false

/-- The regions of kind `word` (R51). -/
def Region.isWord : Region → Bool
  | .cmd => true
  | .status => true
  | .cap => true
  | .res32 => true
  | _ => false

/-- The legal accesses: one byte of a `bytes` region, or four bytes at a 4-aligned offset of a register (R55 to R58);
"Every other access is *illegal*" (R59). -/
def legalAccess (msgMax off size : Nat) : Bool :=
  (size == 1 && (regionOf msgMax off).isBytes)
    || (size == 4 && off % 4 == 0 && ((regionOf msgMax off).isBytes || (regionOf msgMax off).isWord))

/-- The window's byte at an offset of a `bytes` region (R55). -/
def windowByte (s : State) (off : Nat) : Byte :=
  match regionOf s.cfg.msgMax off with
  | .key => s.key[off - 0x010]?.getD 0#8
  | .out0 => s.out0[off - 0x020]?.getD 0#8
  | .out1 => s.out1[off - 0x030]?.getD 0#8
  | .ib => s.ib.read (off - 0x100)
  | _ => 0#8

/-- What a legal 4-byte read returns: the register, 0 for `CMD`, or four bytes little-endian (R57). -/
def windowWord (s : State) (off : Nat) : Word32 :=
  match regionOf s.cfg.msgMax off with
  | .cmd => 0#32
  | .status => statusWord s
  | .cap => capWord s.cfg
  | .res32 => s.res32
  | _ => busWord (windowByte s off) (windowByte s (off + 1)) (windowByte s (off + 2)) (windowByte s (off + 3))

/-- `MemWrite(off, 1, v)`: a byte of `KEY` or `IB` becomes `v`; anywhere else the write is ignored (R56). -/
def putByte (off : Nat) (v : Byte) (s : State) : State :=
  match regionOf s.cfg.msgMax off with
  | .key => { s with key := s.key.setIfInBounds (off - 0x010) v }
  | .ib => { s with ib := s.ib.write (off - 0x100) v }
  | _ => s

/-- `MemWrite(off, 4, v)` anywhere but at `CMD`: four bytes to `off` to `off+3`, ignored outside `KEY` and `IB`
(R58). -/
def putWord (off : Nat) (v : Word32) (s : State) : State :=
  putByte (off + 3) (busByte v 3)
    (putByte (off + 2) (busByte v 2) (putByte (off + 1) (busByte v 1) (putByte off (busByte v 0) s)))

end Sys2Proof.Machine
end

