-- ==== Sys2Proof/Machine/Port.lean ====
section
/-! DEFINITION. The host port: what one host event does (`20_memory.md` rules R55 to R60, `30_encoding.md` rule R84,
`70_reset_and_hazards.md` rule R291). -/

namespace Sys2Proof.Machine

/-- The command word `c` is delivered: the command it spells is executed inside the write, or the word is refused
(R58, R84, R85). -/
def deliver (c : Word32) (s : State) : Host.Outcome State Fault Refusal :=
  match decode c with
  | .ok i => exec i s
  | .error e => .next (refuse (opField c) (decodeErrorCode e) s)

/-- A legal read: its value goes to the host, the engine's state does not change (R55, R57, R60). -/
def hostRead (off size : Nat) (s : State) : State :=
  { s with rdata := some (if size = 1 then .byte (windowByte s off) else .word (windowWord s off)) }

/-- A legal write: at `CMD` it delivers the word, anywhere else it writes bytes or is ignored (R56, R58). -/
def hostWrite (off size : Nat) (v : Word32) (s : State) : Host.Outcome State Fault Refusal :=
  if size = 1 then .next (putByte off (busByte v 0) s)
  else if off = 0 then deliver v s
  else .next (putWord off v s)

/-- One host event, indivisibly (R61). An illegal access is refused by name (R59). -/
def hostEvent (e : HostEvent) (s : State) : Host.Outcome State Fault Refusal :=
  match e with
  | .read off size =>
    if legalAccess s.cfg.msgMax off size then .next (hostRead off size s) else .refused (.illegalAccess e)
  | .write off size v =>
    if legalAccess s.cfg.msgMax off size then hostWrite off size v s else .refused (.illegalAccess e)
  | .hardReset => .next (resetEngine s)

/-- Takes the next host event off the queue; the value an earlier read returned has reached the host. -/
def takeEvent (rest : List HostEvent) (s : State) : State := { s with pending := rest, rdata := none }

/-- `s` with one more host event before all that are pending: the write that delivers command word `c`. -/
def issueCommand (c : Word32) (s : State) : State := { s with pending := .write 0x000 4 c :: s.pending }

end Sys2Proof.Machine
end

