-- ==== Sys2Proof/Machine/Step.lean ====
section
/-! DEFINITION. One step: the next host event, in issue order (`20_memory.md` rule R62). -/

namespace Sys2Proof.Machine

/-- Performs the first pending host event. With none pending nothing happens: "Nothing advances between commands"
(R37; DESIGN CHOICE, log entry 3). -/
def step (s : State) : Host.Outcome State Fault Refusal :=
  match s.pending with
  | [] => .next s
  | e :: rest => hostEvent e (takeEvent rest s)

/-- `s` with the command word `w` as the next host event: a 32-bit write to `CMD` (R80, R84; log entry 2). -/
def State.withFetchWord (s : State) (nbits w : Nat) : State :=
  issueCommand (BitVec.ofNat 32 (w % 2 ^ nbits)) s

end Sys2Proof.Machine
end

