-- ==== Sys2Proof/Machine/Frame.lean ====
section
/-! DEFINITION. The command frame transcribed line by line from `30_encoding.md` rule R84, with `Check` of
`60_exceptions.md` rule R252. The machine does not run it: claims compare the machine with it. -/

namespace Sys2Proof.Machine

/-- "execute the rule of the command c[7:0] (rule R83) with H7 = c[8], LEN = c[31:16]" (R84). -/
def runRule (c : Word32) (s : State) : State :=
  match (opField c).toNat with
  | 0x01 => ruleSetkey s
  | 0x02 => ruleEncrypt s
  | 0x03 => ruleAes128 s
  | 0x04 => ruleCmac (lenField c) s
  | 0x05 => ruleDbl s
  | 0x06 => ruleSubkey s
  | 0x10 => ruleF4 s
  | 0x11 => ruleF5 s
  | 0x12 => ruleF6 s
  | 0x13 => ruleG2 s
  | 0x14 => ruleH6 s
  | 0x15 => ruleH7 s
  | 0x16 => ruleAh s
  | 0x18 => ruleLtk2lk (h7Field c) s
  | 0x19 => ruleLk2ltk (h7Field c) s
  | _ => s

/-- The part of the frame that runs for every word but a successful `CLR`: results and valid flags to zero,
`LASTOP <- c[7:0]`, `ECODE <- e` (R84). -/
def frameHead (c : Word32) (e : Byte) (s : State) : State :=
  { s with
    out0 := zero128
    out1 := zero128
    res32 := 0#32
    v0 := false
    v1 := false
    vr := false
    lastop := opField c
    ecode := e }

/-- The command frame (R84). -/
def commandFrame (c : Word32) (s : State) : State :=
  if check c s = eNone ∧ opField c = 0x07#8 then resetEngine s
  else if check c s ≠ eNone then { frameHead c (check c s) s with done := false, err := true, esticky := true }
  else runRule c { frameHead c (check c s) s with done := true, err := false }

end Sys2Proof.Machine
end

