-- ==== Sys2Proof/Machine/Platform.lean ====
section
/-! DEFINITION. A platform of several engine instances (`00_scope.md` rule R6, `20_memory.md` rule R50,
`60_exceptions.md` rule R266; log entry 10). -/

namespace Sys2Proof.Machine

/-- The instances of a platform, number 0 first; `N_INST` is how many there are. -/
structure Platform where
  /-- Each instance, a complete copy of the state of R20 with its own parameters. -/
  insts : List State
  deriving DecidableEq, Repr

/-- `N_INST >= 1`, each instance's parameters as R5 and R6 ask. -/
abbrev Platform.Valid (p : Platform) : Prop := 1 ≤ p.insts.length ∧ ∀ s ∈ p.insts, s.cfg.Valid

/-- The bus address of offset `off` of instance `k` is `BASE[k] + off` (R50). -/
def Platform.busAddr (p : Platform) (k off : Nat) : Option Nat := (p.insts[k]?).map fun s => s.cfg.base + off

/-- A host issues an event to instance `k`, after all it has issued to it before (R62); other instances see nothing
of it. -/
def Platform.issue (p : Platform) (k : Nat) (e : HostEvent) : Platform :=
  { insts := p.insts.modify k fun s => { s with pending := s.pending ++ [e] } }

/-- Instance `k` performs its next event; where there is no instance `k` nothing happens. -/
def Platform.stepAt (p : Platform) (k : Nat) : Host.Outcome Platform Fault Refusal :=
  match p.insts[k]? with
  | none => .next p
  | some s =>
    match step s with
    | .next t => .next { insts := p.insts.set k t }
    | .fault r => .fault r
    | .refused r => .refused r

end Sys2Proof.Machine
end

