-- ==== Sys2Proof/Machine/Work.lean ====
section
/-! DEFINITION. The work of an executed command (`70_reset_and_hazards.md` rule R301), from the message lengths of
its CMAC calls (`42_derivation.md` rule R198). No step reads it: "not a timing claim" (R301). -/

namespace Sys2Proof.Machine

/-- How many CMAC calls, key expansions (one per call) and block encryptions a command performs. -/
structure Work where
  /-- CMAC calls. -/
  cmacCalls : Nat
  /-- Key expansions, one for each call that expands a key. -/
  keyExpansions : Nat
  /-- Block encryptions. -/
  blockEncryptions : Nat
  deriving DecidableEq, Repr

/-- The work of two parts together. -/
def Work.add (a b : Work) : Work :=
  ⟨a.cmacCalls + b.cmacCalls, a.keyExpansions + b.keyExpansions, a.blockEncryptions + b.blockEncryptions⟩

/-- One CMAC call on a message of `len` bytes: "The number of block encryptions is n + 1 (one for L)" (R155). -/
def cmacWork (len : Nat) : Work := ⟨1, 1, blockCount len + 1⟩

/-- The work of each command when it is executed, a row of R301's table; `commandWork` tells whether it is. -/
def work : Instr → Work
  | .setkey _ => ⟨0, 1, 0⟩
  | .encrypt => ⟨0, 0, 1⟩
  | .aes128 => ⟨0, 1, 1⟩
  | .cmac len => cmacWork len
  | .dbl => ⟨0, 0, 0⟩
  | .subkey => ⟨0, 1, 1⟩
  | .clr => ⟨0, 0, 0⟩
  | .f4 => cmacWork 65
  | .f5 => Work.add (cmacWork 32) (Work.add (cmacWork 53) (cmacWork 53))
  | .f6 => cmacWork 65
  | .g2 => cmacWork 80
  | .h6 => cmacWork 4
  | .h7 => cmacWork 16
  | .ah => ⟨0, 1, 1⟩
  | .ltk2lk useH7 => Work.add (cmacWork (if useH7 then 16 else 4)) (cmacWork 4)
  | .lk2ltk useH7 => Work.add (cmacWork (if useH7 then 16 else 4)) (cmacWork 4)

/-- The work of delivering a command word: "A refused command performs none" (R301), an executed one that of its
command. -/
def commandWork (c : Word32) (s : State) : Work :=
  if check c s = eNone then
    match decode c with
    | .ok i => work i
    | .error _ => ⟨0, 0, 0⟩
  else ⟨0, 0, 0⟩

end Sys2Proof.Machine
end

