-- ==== Sys2Proof/Safety.lean ====
section
/-! DEFINITION. The terms claims are stated in: the invariant every step keeps, what a command reads (`30_encoding.md`
rule R86), and which host events are illegal (`20_memory.md` rule R59). -/

namespace Sys2Proof.Machine

/-- What holds of every state a run can reach, from the rules on `IB` (R22), the status flags (R29 to R31, R34, R87,
R251), the results (R23 to R25) and the round-key bank (R26, R27). -/
structure Inv (s : State) : Prop where
  /-- The parameters are as R5 and R6 ask. -/
  cfgValid : s.cfg.Valid
  /-- `IB` is in canonical form. -/
  ibCanonical : s.ib.wf
  /-- `IB` holds no byte beyond `MSG_MAX` (R22). -/
  ibInside : ∀ cell ∈ s.ib, cell.1 < s.cfg.msgMax
  /-- Never both `DONE` and `ERR` (R29). -/
  doneNotErr : s.done = true → s.err = false
  /-- `ECODE` is one of the codes 0x00 to 0x05 (R251). -/
  codeRange : s.ecode.toNat ≤ 5
  /-- `ECODE` is nonzero exactly after a refusal (R28). -/
  errIffCode : s.err = true ↔ s.ecode ≠ eNone
  /-- A refusal leaves `ESTICKY` set (R30). -/
  stickyOfErr : s.err = true → s.esticky = true
  /-- Neither `DONE` nor `ERR`: no command since reset or `CLR` (R29), so nothing else is recorded. -/
  noCommandYet : s.done = false → s.err = false → s.lastop = 0x00#8 ∧ s.esticky = false ∧ s.rkv = false
  /-- An executed command that is recorded is one of the sixteen and is not `CLR` (R84). -/
  doneOp : s.done = true → isOpcode s.lastop = true ∧ s.lastop ≠ 0x07#8
  /-- `V0` is set exactly after a command that has a first 16-byte result (R34, R87). -/
  v0Iff : s.v0 = true ↔ s.done = true ∧ s.lastop ≠ 0x01#8 ∧ s.lastop ≠ 0x13#8
  /-- `V1` is set exactly after `SUBKEY` or `F5` (R24, R87). -/
  v1Iff : s.v1 = true ↔ s.done = true ∧ (s.lastop = 0x06#8 ∨ s.lastop = 0x11#8)
  /-- `VR` is set exactly after `G2` (R25, R87). -/
  vrIff : s.vr = true ↔ s.done = true ∧ s.lastop = 0x13#8
  /-- A result register without its flag is zero (R31, R87). -/
  out0Zero : s.v0 = false → s.out0 = zero128
  /-- A result register without its flag is zero (R31, R87). -/
  out1Zero : s.v1 = false → s.out1 = zero128
  /-- A result register without its flag is zero (R31, R87). -/
  resZero : s.vr = false → s.res32 = 0#32
  /-- `RES32` is below 1,000,000 (R25). -/
  resBelow : s.res32.toNat < 1000000
  /-- `RKV` means that `RK` holds the schedule of some key (R27). -/
  bankSchedule : s.rkv = true → ∃ key : Octet16, s.rk = keyExpansion key
  /-- With no schedule loaded the bank is zero (R26). -/
  bankZero : s.rkv = false → s.rk = Vector.replicate 44 0#32

/-- The commands that read `KEY` (R86, first column of the slot table). -/
def Instr.readsKey : Instr → Bool
  | .setkey _ => true
  | .encrypt => false
  | .aes128 => true
  | .cmac _ => true
  | .dbl => false
  | .subkey => true
  | .clr => false
  | .f4 => true
  | .f5 => false
  | .f6 => true
  | .g2 => true
  | .h6 => true
  | .h7 => true
  | .ah => true
  | .ltk2lk _ => false
  | .lk2ltk _ => false

/-- Whether byte `IB[j]` is in a slot of the command (R86, second column of the slot table). -/
def Instr.readsIb : Instr → Nat → Prop
  | .setkey _, _ => False
  | .encrypt, j => j < 16
  | .aes128, j => j < 16
  | .cmac len, j => j < len
  | .dbl, j => j < 16
  | .subkey, _ => False
  | .clr, _ => False
  | .f4, j => j < 65
  | .f5, j => j < 79 ∧ j ≠ 71
  | .f6, j => j < 51 ∨ (56 ≤ j ∧ j < 63) ∨ (64 ≤ j ∧ j < 71)
  | .g2, j => j < 80
  | .h6, j => j < 4
  | .h7, j => j < 16
  | .ah, j => j < 3
  | .ltk2lk _, j => j < 16
  | .lk2ltk _, j => j < 16

/-- Two states that agree on everything the command may read: the parameters, its slots, and for `ENCRYPT` the bank
(R8, R84, R86). -/
def SameOperands (i : Instr) (s t : State) : Prop :=
  s.cfg = t.cfg ∧ (Instr.readsKey i = true → s.key = t.key)
    ∧ (∀ j, Instr.readsIb i j → s.ib.read j = t.ib.read j)
    ∧ (i = .encrypt → s.rk = t.rk ∧ s.rkv = t.rkv)

/-- Two states that agree on the record of the last command and on its results (R23 to R25, R28). -/
def SameResults (s t : State) : Prop :=
  s.out0 = t.out0 ∧ s.out1 = t.out1 ∧ s.res32 = t.res32 ∧ s.done = t.done ∧ s.err = t.err ∧ s.v0 = t.v0
    ∧ s.v1 = t.v1 ∧ s.vr = t.vr ∧ s.ecode = t.ecode ∧ s.lastop = t.lastop

/-- The state after a command that was executed and left these results: the frame's bookkeeping of R84 around the
results of R87, everything else as before. -/
def executed (op : Byte) (out0 out1 : Octet16) (res32 : Word32) (v0 v1 vr : Bool) (s : State) : State :=
  { s with
    out0 := out0
    out1 := out1
    res32 := res32
    v0 := v0
    v1 := v1
    vr := vr
    done := true
    err := false
    ecode := 0x00#8
    lastop := op }

/-- The state after a refusal with a code (R254), everything R254 does not name as before. -/
def refusedWith (op code : Byte) (s : State) : State :=
  { s with
    out0 := zero128
    out1 := zero128
    res32 := 0#32
    v0 := false
    v1 := false
    vr := false
    done := false
    err := true
    esticky := true
    ecode := code
    lastop := op }

/-- The slot `IB[lo..lo+n-1]` holds the spec-order field `u` in toolbox order: byte 0 of the slot is the field's
least significant byte (R53 (b), R86). -/
def SlotField {n : Nat} (lo : Nat) (s : State) (u : Bytes n) : Prop :=
  ∀ i : Fin n, s.ib.read (lo + (n - 1 - i.val)) = u[i]

/-- `KEY` holds the spec-order value `x` in toolbox order (R53 (b)). -/
def KeyField (s : State) (x : Octet16) : Prop := ∀ i : Fin 16, s.key[15 - i.val] = x[i]

/-- `IB[0..len-1]` holds the spec-order message in toolbox order, reversed as one whole (R53 (b), R159). -/
def BufferMessage (s : State) (m : List Byte) : Prop :=
  ∀ i (h : i < m.length), s.ib.read (m.length - 1 - i) = m[i]

/-- The value of a byte sequence as an unsigned integer, byte 0 most significant (R11, R150). -/
def specNat (l : List Byte) : Nat := l.foldl (fun acc b => acc * 256 + b.toNat) 0

/-- A field of the word the command does not use is not zero (R251, `E_RSVD`). -/
def UnusedFieldSet (c : Word32) : Prop :=
  rsvField c ≠ 0#7 ∨ (h7Field c = true ∧ opField c ≠ 0x18#8 ∧ opField c ≠ 0x19#8)
    ∨ (lenField c ≠ 0 ∧ opField c ≠ 0x01#8 ∧ opField c ≠ 0x04#8)

/-- The opcode bytes R85 (a) lists as spelling no command: 0x00, 0x08 to 0x0F, 0x17, 0x1A to 0xFF. -/
def UnassignedOpcode (op : Byte) : Prop :=
  op.toNat = 0x00 ∨ (0x08 ≤ op.toNat ∧ op.toNat ≤ 0x0F) ∨ op.toNat = 0x17 ∨ 0x1A ≤ op.toNat

/-- The offsets of the `bytes` regions: `KEY`, `OUT0`, `OUT1` and `IB` (R51). -/
def BytesOffset (msgMax off : Nat) : Prop :=
  (0x010 ≤ off ∧ off ≤ 0x03F) ∨ (0x100 ≤ off ∧ off < 0x100 + msgMax)

/-- The two events with the effect `Reset()`: a hard reset, and the word of `CLR` (R291). -/
def ResetEvent (e : HostEvent) : Prop := e = .hardReset ∨ e = .write 0x000 4 0x00000007#32

/-- How a command is spelled: the word decodes to it, and a word with its opcode that sets a field it does not use is
refused with `E_RSVD` (the *Encoding* and *Refusals* of every command rule). -/
def SpelledBy (w : Word32) (i : Instr) : Prop :=
  decode w = .ok i ∧
    ∀ (s : State) (c : Word32), opField c = i.opcode → UnusedFieldSet c →
      hostEvent (.write 0x000 4 c) s = .next (refusedWith i.opcode 0x02#8 s)

/-- The illegal accesses as R59 lists them, for an access of `size` bytes at `off`. -/
def IllegalAccess (msgMax off size : Nat) : Prop :=
  (size ≠ 1 ∧ size ≠ 4) ∨ (size = 4 ∧ off % 4 ≠ 0) ∨ (size = 1 ∧ off ≤ 0x00F)
    ∨ (0x040 ≤ off ∧ off ≤ 0x0FF) ∨ 0x100 + msgMax ≤ off

end Sys2Proof.Machine
end

