-- ==== Sys2Proof/Certificates/Slice0/Obligations.lean ====
section
/-! DEFINITION. The statements for the provers, in the order of the spec's files. `hostEvent e s` is what one event at
the instance's port does, so `hostEvent (.write 0x000 4 c) s` is the 32-bit write to `CMD` that delivers the word `c`;
`StepRunsDecodedCommand` says that a step performs the first pending event. The value a read returns stands in the
model's field `rdata` (log entry 4), the events not yet performed in the model's field `pending` (log entry 2). -/

open Sys2Proof Sys2Proof.Machine

/-! ### Decoding (`30_encoding.md`) -/

/-- Every well-formed command survives encoding and decoding (R81, R83). -/
def Obligations.DecodeOfEncode : Prop :=
  ∀ i : Instr, i.wellFormed = true → decode (encode i) = .ok i

/-- A word that decodes is the one word of its command: no bit of it is ignored (R82, R85). -/
def Obligations.EncodeOfDecode : Prop :=
  ∀ (c : Word32) (i : Instr), decode c = .ok i → encode i = c ∧ i.wellFormed = true

/-- A word decodes to a command of a table row exactly when it matches the row's mask and value, so rows do not overlap
and nothing else decodes. -/
def Obligations.DecodeMatchesOpcodeTable : Prop :=
  ∀ (c : Word32) (r : OpcodeRow), r ∈ opcodeRows →
    (c &&& r.mask = r.value ↔ ∃ i : Instr, decode c = .ok i ∧ i.mnemonic = r.mnemonic)

/-- Words written out from R83 and R88 decode to their commands. -/
def Obligations.SpecWordsDecode : Prop :=
  decode 0x00100001#32 = .ok (.setkey 16) ∧ decode 0x00000002#32 = .ok .encrypt ∧
    decode 0x00280004#32 = .ok (.cmac 40) ∧ decode 0x00000007#32 = .ok .clr ∧
    decode 0x00000013#32 = .ok .g2 ∧ decode 0x00000118#32 = .ok (.ltk2lk true) ∧
    decode 0x00000019#32 = .ok (.lk2ltk false)

/-- R85 (a), (b): a word that spells no command is refused, with `E_OPCODE` for an unassigned opcode and with `E_RSVD`
for a nonzero unused field. -/
def Obligations.ReservedWordsRefused : Prop :=
  ∀ (s : State) (c : Word32),
    (UnassignedOpcode (opField c) →
      hostEvent (.write 0x000 4 c) s = .next (refusedWith (opField c) 0x01#8 s)) ∧
    (¬ UnassignedOpcode (opField c) → UnusedFieldSet c →
      hostEvent (.write 0x000 4 c) s = .next (refusedWith (opField c) 0x02#8 s))

/-! ### The command frame (`30_encoding.md` R84, `60_exceptions.md`, `10_state.md`) -/

/-- A step performs the first pending event, and one whose event writes a word that spells `i` to `CMD` is `exec i`.
Around it the step takes the event off the queue and withdraws the data of an earlier read, which is the model's own
account of the host (DESIGN CHOICE, log entries 2 and 4). -/
def Obligations.StepRunsDecodedCommand : Prop :=
  ∀ (s : State) (e : HostEvent) (rest : List HostEvent), s.pending = e :: rest →
    step s = hostEvent e { s with pending := rest, rdata := none } ∧
    ∀ (c : Word32) (i : Instr), e = .write 0x000 4 c → decode c = .ok i →
      step s = exec i { s with pending := rest, rdata := none }

/-- Every 32-bit write to `CMD`, whatever the word, does exactly what the frame of R84 with the `Check` of R252 says. -/
def Obligations.CmdWriteIsCommandFrame : Prop :=
  ∀ (s : State) (c : Word32), hostEvent (.write 0x000 4 c) s = .next (commandFrame c s)

/-- R254: the effect of a refusal, for every word that `Check` turns away. -/
def Obligations.RefusalEffect : Prop :=
  ∀ (s : State) (c : Word32), check c s ≠ 0x00#8 →
    hostEvent (.write 0x000 4 c) s = .next (refusedWith (opField c) (check c s) s)

/-- R251, R253: which code each cause gives, the earlier cause winning, and that the code and the opcode byte are
recorded. -/
def Obligations.RefusalCauses : Prop :=
  ∀ (s : State) (c : Word32), ∃ t : State, hostEvent (.write 0x000 4 c) s = .next t ∧
    (t.ecode = 0x01#8 ↔ UnassignedOpcode (opField c)) ∧
    (t.ecode = 0x02#8 ↔ ¬ UnassignedOpcode (opField c) ∧ UnusedFieldSet c) ∧
    (t.ecode = 0x03#8 ↔ opField c = 0x01#8 ∧ ¬ UnusedFieldSet c ∧ lenField c ≠ 16) ∧
    (t.ecode = 0x04#8 ↔ opField c = 0x04#8 ∧ ¬ UnusedFieldSet c ∧ s.cfg.msgMax < lenField c) ∧
    (t.ecode = 0x05#8 ↔ opField c = 0x02#8 ∧ ¬ UnusedFieldSet c ∧ s.rkv = false) ∧
    t.ecode.toNat ≤ 5 ∧ (t.ecode = 0x00#8 ↔ t.err = false) ∧ (t.err = true → t.lastop = opField c)

/-- R257: the next word is checked and executed as if the refusal had not happened, but for `ESTICKY`; when it is
executed, `DONE` is set and the refusal's record is gone. -/
def Obligations.RefusalIsForgotten : Prop :=
  ∀ (s t : State) (op code : Byte) (d : Word32), hostEvent (.write 0x000 4 d) s = .next t →
    hostEvent (.write 0x000 4 d) (refusedWith op code s)
      = .next (if d = 0x00000007#32 then t else { t with esticky := true }) ∧
    (check d s = 0x00#8 → t.err = false ∧ t.ecode = 0x00#8 ∧ (d ≠ 0x00000007#32 → t.done = true))

/-- R29: after reset and after a successful `CLR` neither `DONE` nor `ERR`; after any other word exactly one of them,
`DONE` when it was executed; no other event changes them. -/
def Obligations.DoneOrErrAfterCommand : Prop :=
  ∀ (s t : State) (e : HostEvent) (rest : List HostEvent), s.pending = e :: rest → step s = .next t →
    (ResetEvent e → t.done = false ∧ t.err = false) ∧
    (∀ c, e = .write 0x000 4 c → ¬ ResetEvent e →
      if check c s = 0x00#8 then t.done = true ∧ t.err = false else t.done = false ∧ t.err = true) ∧
    (¬ ResetEvent e → (∀ c, e ≠ .write 0x000 4 c) → t.done = s.done ∧ t.err = s.err)

/-- R30: `ESTICKY` is cleared by reset and `CLR`, set by every refusal, and left alone by everything else. -/
def Obligations.StickyFlag : Prop :=
  ∀ (s t : State) (e : HostEvent) (rest : List HostEvent), s.pending = e :: rest → step s = .next t →
    (ResetEvent e → t.esticky = false) ∧
    (∀ c, e = .write 0x000 4 c → ¬ ResetEvent e → t.esticky = if check c s = 0x00#8 then s.esticky else true) ∧
    (¬ ResetEvent e → (∀ c, e ≠ .write 0x000 4 c) → t.esticky = s.esticky)

/-- R34: for every element of the state, which events can change it, and which commands can leave a result. -/
def Obligations.WritersOfEachElement : Prop :=
  ∀ (s t : State) (e : HostEvent) (rest : List HostEvent), s.pending = e :: rest → step s = .next t →
    (t.key ≠ s.key → ResetEvent e ∨ ∃ off size v, e = .write off size v ∧ 0x010 ≤ off ∧ off ≤ 0x01F) ∧
    ((∃ j, t.ib.read j ≠ s.ib.read j) → ResetEvent e ∨ ∃ off size v, e = .write off size v ∧ 0x100 ≤ off) ∧
    (¬ SameResults s t → e = .hardReset ∨ ∃ c, e = .write 0x000 4 c) ∧
    ((t.rk ≠ s.rk ∨ t.rkv ≠ s.rkv) → ResetEvent e ∨ e = .write 0x000 4 0x00100001#32) ∧
    (t.esticky ≠ s.esticky → ResetEvent e ∨ ∃ c, e = .write 0x000 4 c ∧ check c s ≠ 0x00#8) ∧
    ∀ c, e = .write 0x000 4 c →
      (t.out0 ≠ zero128 ∨ t.v0 = true →
        check c s = 0x00#8 ∧ opField c ≠ 0x01#8 ∧ opField c ≠ 0x07#8 ∧ opField c ≠ 0x13#8) ∧
      (t.out1 ≠ zero128 ∨ t.v1 = true → check c s = 0x00#8 ∧ (opField c = 0x06#8 ∨ opField c = 0x11#8)) ∧
      (t.res32 ≠ 0#32 ∨ t.vr = true → check c s = 0x00#8 ∧ opField c = 0x13#8)

/-- R36, R27: the round-key bank changes only by a successful `SETKEY`, which loads the schedule of `KEY`, and by `CLR`
and reset, which clear it. -/
def Obligations.BankChangesOnlyBySetkeyAndReset : Prop :=
  ∀ (s t : State), step s = .next t →
    (t.rk = s.rk ∧ t.rkv = s.rkv) ∨
    ((∃ rest, s.pending = .write 0x000 4 0x00100001#32 :: rest) ∧ t.rk = keyExpansion s.key ∧ t.rkv = true) ∨
    ((∃ e rest, s.pending = e :: rest ∧ ResetEvent e) ∧ t.rk = Vector.replicate 44 0#32 ∧ t.rkv = false)

/-- The frame of every command but `CLR`, executed or turned away: `KEY`, every byte of `IB`, the parameters and the
host's side of the port are unchanged, the round-key bank unless it is `SETKEY`, and `ESTICKY` unless it was turned
away (R21, R22, R34, R36). -/
def Obligations.CommandLeavesOperands : Prop :=
  ∀ (i : Instr) (s t : State), i ≠ .clr → exec i s = .next t →
    t.key = s.key ∧ (∀ j, t.ib.read j = s.ib.read j) ∧ t.ib = s.ib ∧ t.cfg = s.cfg ∧
    t.pending = s.pending ∧ t.rdata = s.rdata ∧
    ((∀ len, i ≠ .setkey len) → t.rk = s.rk ∧ t.rkv = s.rkv) ∧
    (t.err = false → t.esticky = s.esticky) ∧ t.lastop = i.opcode

/-- R34, R87: which result a command may leave, all others zero with their flag clear. -/
def Obligations.ResultWriters : Prop :=
  ∀ (i : Instr) (s t : State), i ≠ .clr → exec i s = .next t →
    (t.v0 = true ↔ t.done = true ∧ (∀ len, i ≠ .setkey len) ∧ i ≠ .g2) ∧
    (t.v1 = true ↔ i = .subkey ∨ i = .f5) ∧ (t.vr = true ↔ i = .g2) ∧
    (t.v0 = false → t.out0 = zero128) ∧ (t.v1 = false → t.out1 = zero128) ∧ (t.vr = false → t.res32 = 0#32)

/-- R8: a command's outcome is a function of its slots (R86), the parameters and, for `ENCRYPT`, the bank. -/
def Obligations.CommandReadsOnlyItsSlots : Prop :=
  ∀ (i : Instr) (s t s' t' : State), SameOperands i s t →
    exec i s = .next s' → exec i t = .next t' →
    SameResults s' t' ∧ (i = .setkey 16 → s'.rk = t'.rk ∧ s'.rkv = t'.rkv)

/-! ### The invariant -/

/-- The invariant holds after reset. -/
def Obligations.InvAtReset : Prop := Inv State.reset

/-- Every step keeps the invariant, from every state that has it. -/
def Obligations.StepKeepsInv : Prop :=
  ∀ (s t : State), Inv s → step s = .next t → Inv t

/-- Two buffers in canonical form that read the same everywhere are the same data. -/
def Obligations.CanonicalBuffersEqual : Prop :=
  ∀ m m' : Memory, m.wf → m'.wf → (∀ i, m.read i = m'.read i) → m = m'

/-! ### The window (`20_memory.md`, `10_state.md`) -/

/-- R59: an illegal access is refused, read or write. -/
def Obligations.IllegalAccessesRefused : Prop :=
  ∀ (s : State) (off size : Nat) (v : Word32), IllegalAccess s.cfg.msgMax off size →
    hostEvent (.read off size) s = .refused (.illegalAccess (.read off size)) ∧
    hostEvent (.write off size v) s = .refused (.illegalAccess (.write off size v))

/-- R293: every other access, and reset, has a next state, whatever the state and the data. -/
def Obligations.LegalEventsComplete : Prop :=
  ∀ (s : State) (e : HostEvent) (rest : List HostEvent), s.pending = e :: rest →
    (∀ off size, e = .read off size → ¬ IllegalAccess s.cfg.msgMax off size) →
    (∀ off size v, e = .write off size v → ¬ IllegalAccess s.cfg.msgMax off size) →
    ∃ t : State, step s = .next t ∧ t.pending = rest ∧ t.cfg = s.cfg

/-- R55: what a 1-byte read returns. -/
def Obligations.ReadByteReturns : Prop :=
  ∀ (s : State) (off i : Nat) (b : Byte),
    ((∃ h : i < 16, off = 0x010 + i ∧ b = s.key[i]) ∨ (∃ h : i < 16, off = 0x020 + i ∧ b = s.out0[i]) ∨
      (∃ h : i < 16, off = 0x030 + i ∧ b = s.out1[i]) ∨ (i < s.cfg.msgMax ∧ off = 0x100 + i ∧ b = s.ib.read i)) →
    hostEvent (.read off 1) s = .next { s with rdata := some (.byte b) }

/-- R57: what a 4-byte read returns, at a `word` register and at a 4-aligned offset of a `bytes` region. -/
def Obligations.ReadWordReturns : Prop :=
  ∀ (s : State) (off : Nat) (w : Word32), s.cfg.Valid →
    ((off = 0x000 ∧ w = 0#32) ∨ (off = 0x004 ∧ w = statusWord s) ∨
      (off = 0x008 ∧ w = capWord s.cfg) ∨ (off = 0x00C ∧ w = s.res32) ∨
      (off % 4 = 0 ∧ BytesOffset s.cfg.msgMax off ∧
        ∀ k : Fin 4, w.extractLsb' (8 * k.val) 8 = windowByte s (off + k.val))) →
    hostEvent (.read off 4) s = .next { s with rdata := some (.word w) }

/-- R28: every bit of `STATUS`. -/
def Obligations.StatusFields : Prop :=
  ∀ s : State,
    (statusWord s).getLsbD 0 = s.done ∧ (statusWord s).getLsbD 1 = s.err ∧ (statusWord s).getLsbD 2 = s.esticky ∧
    (statusWord s).getLsbD 3 = s.rkv ∧ (statusWord s).getLsbD 4 = s.v0 ∧ (statusWord s).getLsbD 5 = s.v1 ∧
    (statusWord s).getLsbD 6 = s.vr ∧ (statusWord s).getLsbD 7 = false ∧
    (statusWord s).extractLsb' 8 8 = s.ecode ∧ (statusWord s).extractLsb' 16 8 = s.lastop ∧
    (statusWord s).extractLsb' 24 8 = 0#8

/-- R32: the fields of `CAP`. -/
def Obligations.CapFields : Prop :=
  ∀ cfg : Config, cfg.Valid →
    ((capWord cfg).extractLsb' 0 16).toNat = cfg.msgMax ∧ (capWord cfg).extractLsb' 16 8 = 0x01#8 ∧
    (capWord cfg).extractLsb' 24 8 = 0#8

/-- R52: a 4-byte read of a `bytes` region sees at byte `k` of the word what a 1-byte read at `off + k` returns. -/
def Obligations.WordReadIsFourByteReads : Prop :=
  ∀ (s : State) (off : Nat), s.cfg.Valid → off % 4 = 0 → BytesOffset s.cfg.msgMax off →
    ∃ w : Word32, hostEvent (.read off 4) s = .next { s with rdata := some (.word w) } ∧
      ∀ k : Fin 4, hostEvent (.read (off + k.val) 1) s
        = .next { s with rdata := some (.byte (w.extractLsb' (8 * k.val) 8)) }

/-- R60: a legal read changes nothing but the host's side of the port, and repeating it returns the same value. -/
def Obligations.ReadsAreIdempotent : Prop :=
  ∀ (s : State) (off size : Nat), ¬ IllegalAccess s.cfg.msgMax off size →
    ∃ d : ReadData, hostEvent (.read off size) s = .next { s with rdata := some d } ∧
      hostEvent (.read off size) { s with rdata := some d } = .next { s with rdata := some d }

/-- R56: a 1-byte write of `KEY` or `IB` changes that byte and no other state; one of `OUT0` or `OUT1` is ignored. That
the event's datum is 32 bits wide, of which a 1-byte write stores bits 7:0, is the model's choice (DESIGN CHOICE, log
entry 9). -/
def Obligations.ByteWriteEffect : Prop :=
  ∀ (s : State) (v : Word32), s.ib.wf →
    (∀ i : Fin 16, hostEvent (.write (0x010 + i.val) 1 v) s
      = .next { s with key := s.key.set i.val (v.extractLsb' 0 8) }) ∧
    (∀ i, i < s.cfg.msgMax → ∃ m : Memory, hostEvent (.write (0x100 + i) 1 v) s = .next { s with ib := m } ∧
      ∀ j, m.read j = if j = i then v.extractLsb' 0 8 else s.ib.read j) ∧
    (∀ i : Fin 32, hostEvent (.write (0x020 + i.val) 1 v) s = .next s)

/-- R58: a 4-byte write of `KEY` or `IB` puts `v[7:0]` to `v[31:24]` at the four offsets from the lowest on and changes
no other state; at `CMD` it delivers the command word; at the registers a host cannot write it is ignored. -/
def Obligations.WordWriteEffect : Prop :=
  ∀ (s : State) (v : Word32) (i : Nat), s.cfg.Valid → s.ib.wf → i % 4 = 0 →
    (i < 16 → ∃ key : Octet16, hostEvent (.write (0x010 + i) 4 v) s = .next { s with key := key } ∧
      ∀ j : Fin 16, key[j] = if i ≤ j.val ∧ j.val < i + 4 then v.extractLsb' (8 * (j.val - i)) 8 else s.key[j]) ∧
    (i < s.cfg.msgMax → ∃ m : Memory, hostEvent (.write (0x100 + i) 4 v) s = .next { s with ib := m } ∧
      ∀ j, m.read j = if i ≤ j ∧ j < i + 4 then v.extractLsb' (8 * (j - i)) 8 else s.ib.read j) ∧
    hostEvent (.write 0x000 4 v) s = .next (commandFrame v s) ∧
    (i = 0x004 ∨ i = 0x008 ∨ i = 0x00C ∨ (0x020 ≤ i ∧ i ≤ 0x03F) → hostEvent (.write i 4 v) s = .next s)

/-! ### Reset (`70_reset_and_hazards.md`, `44_system.md`) -/

/-- R290: what a hard reset leaves, read through the window as well. That the parameters and the events still pending
stay is the model's choice (DESIGN CHOICE, log entries 2 and 12). -/
def Obligations.ResetLeavesZero : Prop :=
  ∀ s : State,
    ∃ t : State, hostEvent .hardReset s = .next t ∧ t.key = zero128 ∧ t.out0 = zero128 ∧ t.out1 = zero128 ∧
      (∀ j, t.ib.read j = 0x00#8) ∧ t.res32 = 0#32 ∧ (∀ r : Fin 44, t.rk[r] = 0#32) ∧ t.rkv = false ∧
      t.done = false ∧ t.err = false ∧ t.esticky = false ∧ t.v0 = false ∧ t.v1 = false ∧ t.vr = false ∧
      t.ecode = 0x00#8 ∧ t.lastop = 0x00#8 ∧ statusWord t = 0x00000000#32 ∧
      capWord t.cfg = BitVec.ofNat 32 s.cfg.msgMax ||| 0x01#32 <<< 16 ∧
      (∀ off, windowByte t off = 0x00#8) ∧ t.cfg = s.cfg ∧ t.pending = s.pending

/-- R240: a `CLR` that is executed does what a hard reset does and is the only command that clears `ESTICKY`, an
`ENCRYPT` after it is refused, and a `CLR` word with any unused field set is refused and clears nothing. -/
def Obligations.ClrIsReset : Prop :=
  (∀ s : State, exec .clr s = .next { State.reset with cfg := s.cfg, pending := s.pending, rdata := s.rdata } ∧
      hostEvent (.write 0x000 4 0x00000007#32) s = hostEvent .hardReset s) ∧
  (∀ s t : State, exec .clr s = .next t →
    statusWord t = 0x00000000#32 ∧ exec .encrypt t = .next (refusedWith 0x02#8 0x05#8 t)) ∧
  (∀ (i : Instr) (s t : State), i ≠ .clr → exec i s = .next t → s.esticky = true → t.esticky = true) ∧
  ∀ (s : State) (c : Word32), opField c = 0x07#8 → c ≠ 0x00000007#32 →
    hostEvent (.write 0x000 4 c) s = .next (refusedWith 0x07#8 0x02#8 s)

/-! ### Results of the commands (`40_aes128.md`, `41_cmac.md`, `42_derivation.md`, `43_keyconv.md`) -/

/-- R122: `SETKEY 16` loads the schedule of `KEY`, taken as it stands; any other length is refused with `E_KEYLEN`, the
bank kept. -/
def Obligations.SetkeyResult : Prop :=
  SpelledBy 0x00100001#32 (.setkey 16) ∧
  ∀ s : State,
    exec (.setkey 16) s = .next (executed 0x01#8 zero128 zero128 0#32 false false false
      { s with rk := keyExpansion s.key, rkv := true }) ∧
    ∀ len, len ≠ 16 → exec (.setkey len) s = .next (refusedWith 0x01#8 0x03#8 s)

/-- R123: `ENCRYPT` with a schedule loaded gives `Cipher(RK, IB[0..15])`, no byte reversed; without one it is refused
with `E_NOKEY`. -/
def Obligations.EncryptResult : Prop :=
  SpelledBy 0x00000002#32 .encrypt ∧
  ∀ (s : State) (p : Octet16), (∀ i : Fin 16, s.ib.read i.val = p[i]) →
    (s.rkv = true → exec .encrypt s = .next (executed 0x02#8 (cipher s.rk p) zero128 0#32 true false false s)) ∧
    (s.rkv = false → exec .encrypt s = .next (refusedWith 0x02#8 0x05#8 s))

/-- R124: `AES128` encrypts in toolbox order. -/
def Obligations.Aes128Result : Prop :=
  SpelledBy 0x00000003#32 .aes128 ∧
  ∀ (s : State) (k p : Octet16), KeyField s k → SlotField 0 s p →
    exec .aes128 s = .next (executed 0x03#8 (rev (aesEnc k p)) zero128 0#32 true false false s)

/-- R157: `DBL`. -/
def Obligations.DblResult : Prop :=
  SpelledBy 0x00000005#32 .dbl ∧
  ∀ (s : State) (x : Octet16), SlotField 0 s x →
    exec .dbl s = .next (executed 0x05#8 (rev (double x)) zero128 0#32 true false false s)

/-- R158, R151: `SUBKEY` leaves K1 in `OUT0` and K2 in `OUT1`. -/
def Obligations.SubkeyResult : Prop :=
  SpelledBy 0x00000006#32 .subkey ∧
  ∀ (s : State) (k : Octet16), KeyField s k →
    exec .subkey s = .next (executed 0x06#8 (rev (double (aesEnc k zero128)))
      (rev (double (double (aesEnc k zero128)))) 0#32 true true false s)

/-- R159: `CMAC` of the message in `IB`, for every length the buffer holds, 0 included; a longer one is refused with
`E_MSGLEN`. -/
def Obligations.CmacResult : Prop :=
  (∀ len, len < 2 ^ 16 → SpelledBy (BitVec.ofNat 32 len <<< 16 ||| 0x04#32) (.cmac len)) ∧
  (∀ (s : State) (k : Octet16) (m : List Byte), KeyField s k → m.length ≤ s.cfg.msgMax → BufferMessage s m →
    exec (.cmac m.length) s = .next (executed 0x04#8 (rev (cmac k m)) zero128 0#32 true false false s)) ∧
  ∀ (s : State) (len : Nat), s.cfg.msgMax < len → exec (.cmac len) s = .next (refusedWith 0x04#8 0x04#8 s)

/-- R191, R181: `F4`. -/
def Obligations.F4Result : Prop :=
  SpelledBy 0x00000010#32 .f4 ∧
  ∀ (s : State) (u v : Bytes 32) (x : Octet16) (z : Bytes 1),
    SlotField 0 s u → SlotField 32 s v → KeyField s x → SlotField 64 s z →
    exec .f4 s = .next (executed 0x10#8 (rev (cmac x (u.toList ++ v.toList ++ z.toList)))
      zero128 0#32 true false false s)

/-- R192, R182 to R184: `F5` leaves MacKey in `OUT0` and LTK in `OUT1`. -/
def Obligations.F5Result : Prop :=
  SpelledBy 0x00000011#32 .f5 ∧
  ∀ (s : State) (w : Bytes 32) (n1 n2 t : Octet16) (a1 a2 : Bytes 7) (tail : List Byte),
    SlotField 0 s w → SlotField 32 s n1 → SlotField 48 s n2 → SlotField 64 s a1 → SlotField 72 s a2 →
    t = cmac s.cfg.saltF5 w.toList →
    tail = s.cfg.keyidF5.toList ++ n1.toList ++ n2.toList ++ a1.toList ++ a2.toList ++ s.cfg.lenF5.toList →
    exec .f5 s = .next (executed 0x11#8 (rev (cmac t (0x00#8 :: tail))) (rev (cmac t (0x01#8 :: tail)))
      0#32 true true false s)

/-- R193, R185: `F6`. -/
def Obligations.F6Result : Prop :=
  SpelledBy 0x00000012#32 .f6 ∧
  ∀ (s : State) (w n1 n2 r : Octet16) (iocap : Bytes 3) (a1 a2 : Bytes 7),
    KeyField s w → SlotField 0 s n1 → SlotField 16 s n2 → SlotField 32 s r → SlotField 48 s iocap →
    SlotField 56 s a1 → SlotField 64 s a2 →
    exec .f6 s = .next (executed 0x12#8
      (rev (cmac w (n1.toList ++ n2.toList ++ r.toList ++ iocap.toList ++ a1.toList ++ a2.toList)))
      zero128 0#32 true false false s)

/-- R194, R186: `G2` leaves the last 32 bits of the MAC modulo `G2_MOD`, which R5 fixes at 1,000,000. -/
def Obligations.G2Result : Prop :=
  SpelledBy 0x00000013#32 .g2 ∧
  ∀ (s : State) (u v : Bytes 32) (x y mac : Octet16),
    SlotField 0 s u → SlotField 32 s v → KeyField s x → SlotField 64 s y →
    mac = cmac x (u.toList ++ v.toList ++ y.toList) →
    ∃ r : Word32, exec .g2 s = .next (executed 0x13#8 zero128 zero128 r false false true s) ∧
      r.toNat = specNat mac.toList % 2 ^ 32 % s.cfg.g2Mod ∧
      (s.cfg.Valid → r.toNat = specNat mac.toList % 2 ^ 32 % 1000000)

/-- R195, R187: `H6`, the secret `W` as key. -/
def Obligations.H6Result : Prop :=
  SpelledBy 0x00000014#32 .h6 ∧
  ∀ (s : State) (w : Octet16) (keyId : Bytes 4), KeyField s w → SlotField 0 s keyId →
    exec .h6 s = .next (executed 0x14#8 (rev (cmac w keyId.toList)) zero128 0#32 true false false s)

/-- R196, R188: `H7`, the secret `W` as message. -/
def Obligations.H7Result : Prop :=
  SpelledBy 0x00000015#32 .h7 ∧
  ∀ (s : State) (salt w : Octet16), KeyField s salt → SlotField 0 s w →
    exec .h7 s = .next (executed 0x15#8 (rev (cmac salt w.toList)) zero128 0#32 true false false s)

/-- R197, R190: `AH` leaves the three low bytes of one encryption in `OUT0[0..2]` and zeros above. -/
def Obligations.AhResult : Prop :=
  SpelledBy 0x00000016#32 .ah ∧
  ∀ (s : State) (irk r e : Octet16) (prand : Bytes 3), KeyField s irk → SlotField 0 s prand →
    (∀ i : Fin 13, r[i.val] = 0x00#8) → (∀ i : Fin 3, r[13 + i.val] = prand[i]) → e = aesEnc irk r →
    ∃ o : Octet16, exec .ah s = .next (executed 0x16#8 o zero128 0#32 true false false s) ∧
      (∀ k : Fin 3, o[k.val] = e[15 - k.val]) ∧ (∀ k : Fin 13, o[3 + k.val] = 0x00#8)

/-- R197's derived form: `OUT0[0..2]` of `AH` are bytes 0 to 2 of what `AES128` leaves for the same `KEY` and the
message `IB[0..2] || (00)^13`. -/
def Obligations.AhAgreesWithAes128 : Prop :=
  ∀ (s t a b : State), t.key = s.key → (∀ j, j < 3 → t.ib.read j = s.ib.read j) →
    (∀ j, 3 ≤ j → j < 16 → t.ib.read j = 0x00#8) →
    exec .ah s = .next a → exec .aes128 t = .next b → ∀ k : Fin 3, a.out0[k.val] = b.out0[k.val]

/-- R224, R220, R221: `LTK2LK` on both paths. -/
def Obligations.Ltk2lkResult : Prop :=
  SpelledBy 0x00000118#32 (.ltk2lk true) ∧ SpelledBy 0x00000018#32 (.ltk2lk false) ∧
  ∀ (s : State) (useH7 : Bool) (ltk mid : Octet16), SlotField 0 s ltk →
    mid = (if useH7 then cmac s.cfg.saltTmpLe2br ltk.toList else cmac ltk s.cfg.keyidTmpLe2br.toList) →
    exec (.ltk2lk useH7) s
      = .next (executed 0x18#8 (rev (cmac mid s.cfg.keyidLebr.toList)) zero128 0#32 true false false s)

/-- R225, R220, R222: `LK2LTK` on both paths. -/
def Obligations.Lk2ltkResult : Prop :=
  SpelledBy 0x00000119#32 (.lk2ltk true) ∧ SpelledBy 0x00000019#32 (.lk2ltk false) ∧
  ∀ (s : State) (useH7 : Bool) (linkKey mid : Octet16), SlotField 0 s linkKey →
    mid = (if useH7 then cmac s.cfg.saltTmpBr2le linkKey.toList else cmac linkKey s.cfg.keyidTmpBr2le.toList) →
    exec (.lk2ltk useH7) s
      = .next (executed 0x19#8 (rev (cmac mid s.cfg.keyidBrle.toList)) zero128 0#32 true false false s)

/-! ### The functions the commands evaluate -/

/-- R111: the two multipliers the cipher needs. -/
def Obligations.GmulTwoAndThree : Prop :=
  ∀ b : Byte, gmul 0x02#8 b = xtime b ∧ gmul 0x03#8 b = xtime b ^^^ b

/-- R112, R113: the table is the multiplicative inverse followed by the affine step. -/
def Obligations.SboxIsInverseThenAffine : Prop :=
  sbox 0x00#8 = sboxAffine 0x00#8 ∧
    ∀ a : Byte, a ≠ 0x00#8 → ∃ x : Byte, gmul a x = 0x01#8 ∧ sbox a = sboxAffine x

/-- R115: the first four words are the key, and the recurrence for the other forty. -/
def Obligations.KeyScheduleRecurrence : Prop :=
  ∀ key : Octet16,
    (∀ (i k : Fin 4), wordByte ((keyExpansion key)[i.val]) k.val = key[4 * i.val + k.val]) ∧
    ∀ i : Fin 40, (keyExpansion key)[4 + i.val]
      = (keyExpansion key)[i.val] ^^^ scheduleTerm (4 + i.val) (keyExpansion key)[3 + i.val]

/-- R119: `MixColumns` as the matrix of `gmul` products. -/
def Obligations.MixColumnsMatrix : Prop :=
  ∀ (s : Octet16) (c : Fin 4) (a0 a1 a2 a3 : Byte),
    a0 = s[4 * c.val] → a1 = s[4 * c.val + 1] → a2 = s[4 * c.val + 2] → a3 = s[4 * c.val + 3] →
    (mixColumns s)[4 * c.val] = gmul 2#8 a0 ^^^ gmul 3#8 a1 ^^^ a2 ^^^ a3 ∧
    (mixColumns s)[4 * c.val + 1] = a0 ^^^ gmul 2#8 a1 ^^^ gmul 3#8 a2 ^^^ a3 ∧
    (mixColumns s)[4 * c.val + 2] = a0 ^^^ a1 ^^^ gmul 2#8 a2 ^^^ gmul 3#8 a3 ∧
    (mixColumns s)[4 * c.val + 3] = gmul 3#8 a0 ^^^ a1 ^^^ a2 ^^^ gmul 2#8 a3

/-- R150: the doubler on the 128-bit integer the value stands for. -/
def Obligations.DoubleIsIntegerDoubling : Prop :=
  ∀ x : Octet16, specNat (double x).toList
    = (2 * specNat x.toList % 2 ^ 128) ^^^ (if 2 ^ 127 ≤ specNat x.toList then 0x87 else 0)

/-- R150: the doubler is a bijection. -/
def Obligations.DoubleBijective : Prop := Function.Bijective double

/-- R154: the final block, byte by byte, on both paths. -/
def Obligations.FinalBlockMasking : Prop :=
  ∀ (k1 k2 : Octet16) (m : List Byte) (i : Fin 16),
    (finalBlock k1 k2 m)[i] =
      if m.length > 0 ∧ m.length % 16 = 0 then m.getD (m.length - 16 + i.val) 0#8 ^^^ k1[i]
      else if i.val < m.length % 16 then m.getD (m.length - m.length % 16 + i.val) 0#8 ^^^ k2[i]
      else if i.val = m.length % 16 then 0x80#8 ^^^ k2[i]
      else k2[i]

/-- R155, R153: the chain, for any values `X_i` that satisfy its equations. -/
def Obligations.CmacIsCbcChain : Prop :=
  ∀ (key l : Octet16) (m : List Byte) (n : Nat) (xs : Nat → Octet16) (block : Nat → Octet16),
    l = aesEnc key zero128 → 1 ≤ n → m.length ≤ 16 * n → (1 < n → 16 * (n - 1) < m.length) →
    (∀ i (j : Fin 16), 1 ≤ i → i < n → (block i)[j] = m.getD (16 * (i - 1) + j.val) 0#8) →
    xs 0 = zero128 → (∀ i, 1 ≤ i → i < n → xs i = aesEnc key (xorBytes (xs (i - 1)) (block i))) →
    cmac key m = aesEnc key (xorBytes (xs (n - 1)) (finalBlock (double l) (double (double l)) m))

/-- R198: the lengths of the recipes' messages. -/
def Obligations.RecipeMessageLengths : Prop :=
  ∀ (cfg : Config) (u v : Bytes 32) (n1 n2 r y : Octet16) (z : Bytes 1) (c : Byte) (iocap : Bytes 3)
    (a1 a2 : Bytes 7),
    (f4Message u v z).length = 65 ∧ (f5Message cfg c n1 n2 a1 a2).length = 53 ∧
    (f6Message n1 n2 r iocap a1 a2).length = 65 ∧ (g2Message u v y).length = 80 ∧
    blockCount 65 = 5 ∧ blockCount 53 = 4 ∧ blockCount 80 = 5 ∧ blockCount 32 = 2 ∧ blockCount 16 = 1 ∧
    blockCount 4 = 1

/-- R301: a word that is refused performs no work; one that is executed performs that of its command, `CMAC` at most
`MSG_MAX / 16 + 1` block encryptions. -/
def Obligations.WorkOfCommandWord : Prop :=
  ∀ (s t : State) (c : Word32), hostEvent (.write 0x000 4 c) s = .next t →
    (t.err = true → commandWork c s = ⟨0, 0, 0⟩) ∧
    (t.err = false → ∃ i : Instr, decode c = .ok i ∧ commandWork c s = work i) ∧
    (t.err = false → opField c = 0x04#8 →
      commandWork c s = ⟨1, 1, max 1 ((lenField c + 15) / 16) + 1⟩ ∧
      (s.cfg.Valid → (commandWork c s).blockEncryptions ≤ s.cfg.msgMax / 16 + 1))

/-! ### Instances (`60_exceptions.md`) -/

/-- R266: a step of one instance is that instance's own step and leaves every other instance as it was. -/
def Obligations.InstancesShareNothing : Prop :=
  ∀ (p q : Platform) (k : Nat), p.stepAt k = .next q →
    q.insts.length = p.insts.length ∧
    (∀ j, j ≠ k → q.insts[j]? = p.insts[j]?) ∧
    (∀ s, p.insts[k]? = some s → ∃ t, step s = .next t ∧ q.insts[k]? = some t)
end

