-- ==== Sys2Proof/Laws/Bytes.lean ====
section
/-! SUPPORT. What the byte helpers answer, element by element. -/

namespace Sys2Proof.Machine

@[simp] theorem tabulate_getElem {n : Nat} (f : Fin n → Byte) (i : Nat) (h : i < n) :
    (tabulate f)[i] = f ⟨i, h⟩ := by
  simp [tabulate]

@[simp] theorem tabulate_getElem_fin {n : Nat} (f : Fin n → Byte) (i : Fin n) : (tabulate f)[i] = f i := by
  simp

theorem tabulate_toList {n : Nat} (f : Fin n → Byte) : (tabulate f).toList = List.ofFn f := by
  simp [tabulate, Vector.toList]

@[simp] theorem zero128_getElem (i : Nat) (h : i < 16) : zero128[i] = 0#8 := by
  simp [zero128]

/-- Byte `i` of `rev b` is byte `n-1-i` of `b` (R9). -/
@[simp] theorem rev_getElem {n : Nat} (b : Bytes n) (i : Nat) (h : i < n) :
    (rev b)[i] = b[n - 1 - i]'(by omega) := by
  simp [rev]

/-- Two byte sequences with equal bytes are equal. -/
theorem bytes_ext {n : Nat} {a b : Bytes n} (h : ∀ i : Fin n, a[i] = b[i]) : a = b := by
  exact Vector.ext fun i hi => h ⟨i, hi⟩

/-- `rev` is its own inverse (R11). -/
@[simp] theorem rev_rev {n : Nat} (b : Bytes n) : rev (rev b) = b := by
  apply bytes_ext
  intro i
  have h : n - 1 - (n - 1 - i.val) = i.val := by omega
  simp [h]

@[simp] theorem rev_zero128 : rev zero128 = zero128 := by
  apply bytes_ext
  intro i
  simp

@[simp] theorem xorBytes_getElem {n : Nat} (a b : Bytes n) (i : Nat) (h : i < n) :
    (xorBytes a b)[i] = a[i] ^^^ b[i] := by
  simp [xorBytes]

@[simp] theorem toOctet16_getElem (l : List Byte) (i : Nat) (h : i < 16) : (toOctet16 l)[i] = l.getD i 0#8 := by
  simp [toOctet16]

@[simp] theorem slotAes_getElem (n lo : Nat) (s : State) (i : Nat) (h : i < n) :
    (slotAes n lo s)[i] = s.ib.read (lo + i) := by
  simp [slotAes]

@[simp] theorem slotSpec_getElem (n lo : Nat) (s : State) (i : Nat) (h : i < n) :
    (slotSpec n lo s)[i] = s.ib.read (lo + (n - 1 - i)) := by
  simp [slotSpec]

@[simp] theorem keySpec_getElem (s : State) (i : Nat) (h : i < 16) : (keySpec s)[i] = s.key[15 - i] := by
  simp [keySpec]

@[simp] theorem messageSpec_length (len : Nat) (s : State) : (messageSpec len s).length = len := by
  simp [messageSpec]

theorem messageSpec_getElem (len : Nat) (s : State) (i : Nat) (h : i < (messageSpec len s).length) :
    (messageSpec len s)[i] = s.ib.read (len - 1 - i) := by
  simp [messageSpec]

/-- The four bytes of a word (R110). -/
@[simp] theorem wordByte_wordOfBytes (b0 b1 b2 b3 : Byte) :
    wordByte (wordOfBytes b0 b1 b2 b3) 0 = b0 ∧ wordByte (wordOfBytes b0 b1 b2 b3) 1 = b1 ∧
      wordByte (wordOfBytes b0 b1 b2 b3) 2 = b2 ∧ wordByte (wordOfBytes b0 b1 b2 b3) 3 = b3 := by
  refine ⟨?_, ?_, ?_, ?_⟩ <;>
    · simp only [wordByte, wordOfBytes]
      ext i hi
      simp [BitVec.getLsbD_or, hi]
      try grind

/-- The four bytes of a bus word (R52). -/
theorem busByte_busWord (b0 b1 b2 b3 : Byte) :
    busByte (busWord b0 b1 b2 b3) 0 = b0 ∧ busByte (busWord b0 b1 b2 b3) 1 = b1 ∧
      busByte (busWord b0 b1 b2 b3) 2 = b2 ∧ busByte (busWord b0 b1 b2 b3) 3 = b3 := by
  refine ⟨?_, ?_, ?_, ?_⟩ <;>
    · simp only [busByte, busWord]
      ext i hi
      simp [BitVec.getLsbD_or, hi]
      try grind

end Sys2Proof.Machine
end

