-- ==== Sys2Proof/Laws/PerInstr.lean ====
section
/-! SUPPORT. A statement made for every constructor of `Instr`: the low byte of a command's word is its opcode
(R81, R83). -/

namespace Sys2Proof.Laws.EncodeOpcode

/-- Bits 7:0 of the word of `i` are the opcode of `i` (R81). -/
def Statement (i : Instr) : Prop := opField (encode i) = i.opcode

/-- The low byte of a packed word is the opcode byte put in. -/
theorem opField_packCommand (op : Byte) (useH7 : Bool) (len : Nat) :
    opField (packCommand op useH7 len) = op := by
  unfold opField packCommand
  ext i hi
  simp [hi, show i < 16 by omega, show i < 32 by omega]

theorem setkey (len : Nat) : Statement (.setkey len) := opField_packCommand ..
theorem encrypt : Statement .encrypt := opField_packCommand ..
theorem aes128 : Statement .aes128 := opField_packCommand ..
theorem cmac (len : Nat) : Statement (.cmac len) := opField_packCommand ..
theorem dbl : Statement .dbl := opField_packCommand ..
theorem subkey : Statement .subkey := opField_packCommand ..
theorem clr : Statement .clr := opField_packCommand ..
theorem f4 : Statement .f4 := opField_packCommand ..
theorem f5 : Statement .f5 := opField_packCommand ..
theorem f6 : Statement .f6 := opField_packCommand ..
theorem g2 : Statement .g2 := opField_packCommand ..
theorem h6 : Statement .h6 := opField_packCommand ..
theorem h7 : Statement .h7 := opField_packCommand ..
theorem ah : Statement .ah := opField_packCommand ..
theorem ltk2lk (useH7 : Bool) : Statement (.ltk2lk useH7) := opField_packCommand ..
theorem lk2ltk (useH7 : Bool) : Statement (.lk2ltk useH7) := opField_packCommand ..

end Sys2Proof.Laws.EncodeOpcode
end

