-- ==== Sys2Proof/Laws/Decode.lean ====
section
/-! SUPPORT. The fields of a command word put together and taken apart (R81, R82), and what the decoder's answer says
about them (R83, R85, R252). -/

namespace Sys2Proof

/-- The opcode byte of a packed word. -/
theorem opField_pack (op : Byte) (b : Bool) (len : Nat) : opField (packCommand op b len) = op :=
  Sys2Proof.Laws.EncodeOpcode.opField_packCommand ..

/-- The selector of a packed word. -/
theorem h7Field_pack (op : Byte) (b : Bool) (len : Nat) : h7Field (packCommand op b len) = b := by
  simp [h7Field, packCommand]

/-- Every bit of a packed word (R81). -/
theorem pack_bit (op : Byte) (b : Bool) (len i : Nat) :
    (packCommand op b len).getLsbD i =
      (decide (i < 32) &&
        if i < 8 then op.getLsbD i
        else if i = 8 then b
        else if i < 16 then false
        else len.testBit (i - 16)) := by
  unfold packCommand
  by_cases h32 : i < 32
  · by_cases h8 : i < 8
    · simp [h8, h32, show i < 16 by omega]
    · have ho : op.getLsbD i = false := BitVec.getLsbD_of_ge _ _ (by omega)
      by_cases h9 : i = 8
      · subst h9
        simp
      · have hz : ¬ (i - 8 = 0) := by omega
        by_cases h16 : i < 16
        · simp [h8, h9, h16, h32, ho, hz]
        · simp [h8, h9, h16, h32, ho, hz]
          rw [← BitVec.getLsbD_eq_getElem (show i - 16 < 32 by omega), BitVec.getLsbD_ofNat]
          simp [show i - 16 < 32 by omega]
  · simp [h32]

/-- A packed word has its reserved field zero. -/
theorem rsvField_pack (op : Byte) (b : Bool) (len : Nat) : rsvField (packCommand op b len) = 0#7 := by
  unfold rsvField
  ext i hi
  simp [pack_bit, show ¬ (9 + i < 8) by omega, show ¬ (9 + i = 8) by omega, show 9 + i < 16 by omega]

/-- The length of a packed word, when it fits the field. -/
theorem lenField_pack (op : Byte) (b : Bool) (len : Nat) (h : len < 65536) : lenField (packCommand op b len) = len := by
  have : (packCommand op b len).extractLsb' 16 16 = BitVec.ofNat 16 len := by
    apply BitVec.eq_of_getLsbD_eq
    intro i hi
    rw [BitVec.getLsbD_extractLsb', pack_bit, BitVec.getLsbD_ofNat]
    simp [hi, show ¬ (16 + i < 8) by omega, show ¬ (16 + i = 8) by omega, show 16 + i < 32 by omega]
  rw [lenField, this]
  simp [Nat.mod_eq_of_lt h]

/-- The bits of a zero reserved field. -/
theorem rsv_bit {c : Word32} (h : rsvField c = 0#7) (i : Nat) (h9 : 9 ≤ i) (h16 : i < 16) : c.getLsbD i = false := by
  have := congrArg (fun x : BitVec 7 => x.getLsbD (i - 9)) h
  simpa [rsvField, show i - 9 < 7 by omega, show 9 + (i - 9) = i by omega] using this

/-- The bits of the length field. -/
theorem lenField_testBit (c : Word32) (i : Nat) (h : i < 16) : (lenField c).testBit i = c.getLsbD (16 + i) := by
  have : (c.extractLsb' 16 16).getLsbD i = c.getLsbD (16 + i) := by simp [h]
  rw [← this]; rfl

/-- A word with its reserved field zero is its three fields packed. -/
theorem pack_fields (c : Word32) (h : rsvField c = 0#7) : packCommand (opField c) (h7Field c) (lenField c) = c := by
  apply BitVec.eq_of_getLsbD_eq
  intro i hi
  rw [pack_bit]
  by_cases h8 : i < 8
  · simp [h8, hi, opField]
  · by_cases h9 : i = 8
    · subst h9; simp [h7Field]
    · by_cases h16 : i < 16
      · simp [h8, h9, h16, rsv_bit h i (by omega) h16]
      · rw [lenField_testBit _ _ (by omega)]
        simp [h8, h9, h16, hi, show 16 + (i - 16) = i by omega]

/-- A length is below 65536. -/
theorem lenField_lt (c : Word32) : lenField c < 65536 := BitVec.isLt _

/-- What a command read from the opcode map carries: its opcode and the two operand fields. -/
theorem instr_some {op : Byte} {b : Bool} {len : Nat} {i : Instr} (h : instrOfOpcode op b len = some i) :
    op = i.opcode ∧ (i.usesH7 = true → i = .ltk2lk b ∨ i = .lk2ltk b) ∧
      (i.usesLen = true → i = .setkey len ∨ i = .cmac len) := by
  unfold instrOfOpcode at h
  split at h
  all_goals first
    | (cases h; done)
    | (rename_i hop
       cases h
       refine ⟨BitVec.eq_of_toNat_eq (by rw [hop]; rfl), ?_, ?_⟩ <;> simp [Instr.usesH7, Instr.usesLen])

/-- What a decoded word's fields are. -/
theorem decode_ok {c : Word32} {i : Instr} (h : decode c = .ok i) :
    instrOfOpcode (opField c) (h7Field c) (lenField c) = some i ∧ rsvField c = 0#7 ∧
      (h7Field c = true → i.usesH7 = true) ∧ (lenField c ≠ 0 → i.usesLen = true) := by
  unfold decode at h
  split at h
  · cases h
  · next j hj =>
    split_ifs at h with h1 h2 h3
    cases h
    refine ⟨hj, by simpa using h1, ?_, ?_⟩
    · intro h; simpa [h] using h2
    · intro h; simpa [h] using h3

namespace Machine

/-- The opcodes R85 (a) lists are those R252 step 1 turns away. -/
theorem unassigned_iff (op : Byte) : UnassignedOpcode op ↔ isOpcode op = false := by
  have : ∀ n : Fin 256, UnassignedOpcode (BitVec.ofFin n) ↔ isOpcode (BitVec.ofFin n) = false := by
    unfold UnassignedOpcode
    decide +kernel
  exact this op.toFin

/-- No command has an opcode that R252 step 1 turns away. -/
theorem instrOfOpcode_none (op : Byte) (b : Bool) (len : Nat) : instrOfOpcode op b len = none ↔ isOpcode op = false := by
  constructor
  · intro h
    unfold instrOfOpcode at h
    split at h <;> first | (cases h; done) | skip
    simp only [isOpcode, Bool.or_eq_false_iff, decide_eq_false_iff_not, beq_eq_false_iff_ne, ne_eq]
    have e : ∀ a b : Byte, a.toNat ≠ b.toNat → a ≠ b := fun a b h hc => h (by rw [hc])
    have k : ∀ n : Nat, (∀ (x : op.toNat = n), False) → op.toNat ≠ n := fun _ h => h
    simp only [imp_false] at *
    refine ⟨⟨⟨?_, ?_⟩, e _ _ ?_⟩, e _ _ ?_⟩
    · omega
    · omega
    · simpa using by assumption
    · simpa using by assumption
  · intro h
    cases hi : instrOfOpcode op b len with
    | none => rfl
    | some i =>
      have := (instr_some hi).1
      subst this
      exfalso
      revert h
      cases i <;> simp [Instr.opcode, isOpcode]

/-- Which opcodes use which operand field. -/
theorem uses_iff {op : Byte} {b : Bool} {len : Nat} {i : Instr} (h : instrOfOpcode op b len = some i) :
    (i.usesH7 = (op == 0x18#8 || op == 0x19#8)) ∧ (i.usesLen = (op == 0x01#8 || op == 0x04#8)) := by
  obtain ⟨h1, -, -⟩ := instr_some h
  subst h1
  cases i <;> simp [Instr.opcode, Instr.usesH7, Instr.usesLen]

/-- A decoded word's opcode byte is its command's. -/
theorem opField_of_ok {c : Word32} {i : Instr} (h : decode c = .ok i) : opField c = i.opcode :=
  (instr_some (decode_ok h).1).1

/-- `Check` (R252) in terms of the decoder's answer: a word that spells no command has the decoder's code, a command the
code of its own meaning's test. -/
theorem check_decode (c : Word32) (s : State) :
    (∀ e, decode c = .error e → check c s = decodeErrorCode e) ∧
    (∀ i, decode c = .ok i → check c s = match i with
      | .setkey len => if len ≠ 16 then eKeyLen else eNone
      | .cmac len => if s.cfg.msgMax < len then eMsgLen else eNone
      | .encrypt => if s.rkv then eNone else eNoKey
      | _ => eNone) := by
  unfold decode check
  cases h : instrOfOpcode (opField c) (h7Field c) (lenField c) with
  | none =>
    have := (instrOfOpcode_none _ _ _).1 h
    simp [this, decodeErrorCode]
  | some i =>
    have hop : isOpcode (opField c) = true := by
      by_contra hc
      rw [(instrOfOpcode_none _ _ _).2 (by simpa using hc)] at h; cases h
    obtain ⟨h7, hl⟩ := uses_iff h
    simp only [hop, h7, hl]
    obtain ⟨ho, hh7, hhl⟩ := instr_some h
    rw [hl] at hhl
    constructor
    · intro e
      split_ifs <;> intro he <;> cases he <;> simp_all [decodeErrorCode]
    · intro j
      simp only [Bool.not_true, Bool.false_eq_true, if_false]
      intro he
      split_ifs at he with ha hb hd
      have he : i = j := Except.ok.inj he
      subst he
      simp only [Bool.false_eq_true, if_false, ha, hb, hd]
      clear hh7 h h7 hl
      cases i <;> simp [Instr.opcode] at ho <;> simp [ho] at hhl ⊢ <;> (try subst hhl) <;> (try rfl)
      all_goals split_ifs <;> simp_all

end Machine

end Sys2Proof
end

