-- ==== Sys2Proof/Laws/State.lean ====
section
/-! SUPPORT. Every field of the state after each shared update: one lemma a field, so that no proof unfolds a record
update. -/

namespace Sys2Proof.Machine

/-! ### `clearResults` -/

@[simp] theorem clearResults_cfg (s : State) : (clearResults s).cfg = s.cfg := rfl
@[simp] theorem clearResults_key (s : State) : (clearResults s).key = s.key := rfl
@[simp] theorem clearResults_ib (s : State) : (clearResults s).ib = s.ib := rfl
@[simp] theorem clearResults_out0 (s : State) : (clearResults s).out0 = zero128 := rfl
@[simp] theorem clearResults_out1 (s : State) : (clearResults s).out1 = zero128 := rfl
@[simp] theorem clearResults_res32 (s : State) : (clearResults s).res32 = 0#32 := rfl
@[simp] theorem clearResults_rk (s : State) : (clearResults s).rk = s.rk := rfl
@[simp] theorem clearResults_rkv (s : State) : (clearResults s).rkv = s.rkv := rfl
@[simp] theorem clearResults_done (s : State) : (clearResults s).done = s.done := rfl
@[simp] theorem clearResults_err (s : State) : (clearResults s).err = s.err := rfl
@[simp] theorem clearResults_esticky (s : State) : (clearResults s).esticky = s.esticky := rfl
@[simp] theorem clearResults_v0 (s : State) : (clearResults s).v0 = false := rfl
@[simp] theorem clearResults_v1 (s : State) : (clearResults s).v1 = false := rfl
@[simp] theorem clearResults_vr (s : State) : (clearResults s).vr = false := rfl
@[simp] theorem clearResults_ecode (s : State) : (clearResults s).ecode = s.ecode := rfl
@[simp] theorem clearResults_lastop (s : State) : (clearResults s).lastop = s.lastop := rfl
@[simp] theorem clearResults_pending (s : State) : (clearResults s).pending = s.pending := rfl
@[simp] theorem clearResults_rdata (s : State) : (clearResults s).rdata = s.rdata := rfl

/-! ### `beginCommand` -/

@[simp] theorem beginCommand_cfg (op : Byte) (s : State) : (beginCommand op s).cfg = s.cfg := rfl
@[simp] theorem beginCommand_key (op : Byte) (s : State) : (beginCommand op s).key = s.key := rfl
@[simp] theorem beginCommand_ib (op : Byte) (s : State) : (beginCommand op s).ib = s.ib := rfl
@[simp] theorem beginCommand_out0 (op : Byte) (s : State) : (beginCommand op s).out0 = zero128 := rfl
@[simp] theorem beginCommand_out1 (op : Byte) (s : State) : (beginCommand op s).out1 = zero128 := rfl
@[simp] theorem beginCommand_res32 (op : Byte) (s : State) : (beginCommand op s).res32 = 0#32 := rfl
@[simp] theorem beginCommand_rk (op : Byte) (s : State) : (beginCommand op s).rk = s.rk := rfl
@[simp] theorem beginCommand_rkv (op : Byte) (s : State) : (beginCommand op s).rkv = s.rkv := rfl
@[simp] theorem beginCommand_done (op : Byte) (s : State) : (beginCommand op s).done = true := rfl
@[simp] theorem beginCommand_err (op : Byte) (s : State) : (beginCommand op s).err = false := rfl
@[simp] theorem beginCommand_esticky (op : Byte) (s : State) : (beginCommand op s).esticky = s.esticky := rfl
@[simp] theorem beginCommand_v0 (op : Byte) (s : State) : (beginCommand op s).v0 = false := rfl
@[simp] theorem beginCommand_v1 (op : Byte) (s : State) : (beginCommand op s).v1 = false := rfl
@[simp] theorem beginCommand_vr (op : Byte) (s : State) : (beginCommand op s).vr = false := rfl
@[simp] theorem beginCommand_ecode (op : Byte) (s : State) : (beginCommand op s).ecode = eNone := rfl
@[simp] theorem beginCommand_lastop (op : Byte) (s : State) : (beginCommand op s).lastop = op := rfl
@[simp] theorem beginCommand_pending (op : Byte) (s : State) : (beginCommand op s).pending = s.pending := rfl
@[simp] theorem beginCommand_rdata (op : Byte) (s : State) : (beginCommand op s).rdata = s.rdata := rfl

/-! ### `refuse` -/

@[simp] theorem refuse_cfg (op code : Byte) (s : State) : (refuse op code s).cfg = s.cfg := rfl
@[simp] theorem refuse_key (op code : Byte) (s : State) : (refuse op code s).key = s.key := rfl
@[simp] theorem refuse_ib (op code : Byte) (s : State) : (refuse op code s).ib = s.ib := rfl
@[simp] theorem refuse_out0 (op code : Byte) (s : State) : (refuse op code s).out0 = zero128 := rfl
@[simp] theorem refuse_out1 (op code : Byte) (s : State) : (refuse op code s).out1 = zero128 := rfl
@[simp] theorem refuse_res32 (op code : Byte) (s : State) : (refuse op code s).res32 = 0#32 := rfl
@[simp] theorem refuse_rk (op code : Byte) (s : State) : (refuse op code s).rk = s.rk := rfl
@[simp] theorem refuse_rkv (op code : Byte) (s : State) : (refuse op code s).rkv = s.rkv := rfl
@[simp] theorem refuse_done (op code : Byte) (s : State) : (refuse op code s).done = false := rfl
@[simp] theorem refuse_err (op code : Byte) (s : State) : (refuse op code s).err = true := rfl
@[simp] theorem refuse_esticky (op code : Byte) (s : State) : (refuse op code s).esticky = true := rfl
@[simp] theorem refuse_v0 (op code : Byte) (s : State) : (refuse op code s).v0 = false := rfl
@[simp] theorem refuse_v1 (op code : Byte) (s : State) : (refuse op code s).v1 = false := rfl
@[simp] theorem refuse_vr (op code : Byte) (s : State) : (refuse op code s).vr = false := rfl
@[simp] theorem refuse_ecode (op code : Byte) (s : State) : (refuse op code s).ecode = code := rfl
@[simp] theorem refuse_lastop (op code : Byte) (s : State) : (refuse op code s).lastop = op := rfl
@[simp] theorem refuse_pending (op code : Byte) (s : State) : (refuse op code s).pending = s.pending := rfl
@[simp] theorem refuse_rdata (op code : Byte) (s : State) : (refuse op code s).rdata = s.rdata := rfl

/-! ### `resetEngine` -/

@[simp] theorem resetEngine_cfg (s : State) : (resetEngine s).cfg = s.cfg := rfl
@[simp] theorem resetEngine_key (s : State) : (resetEngine s).key = State.reset.key := rfl
@[simp] theorem resetEngine_ib (s : State) : (resetEngine s).ib = State.reset.ib := rfl
@[simp] theorem resetEngine_out0 (s : State) : (resetEngine s).out0 = State.reset.out0 := rfl
@[simp] theorem resetEngine_out1 (s : State) : (resetEngine s).out1 = State.reset.out1 := rfl
@[simp] theorem resetEngine_res32 (s : State) : (resetEngine s).res32 = State.reset.res32 := rfl
@[simp] theorem resetEngine_rk (s : State) : (resetEngine s).rk = State.reset.rk := rfl
@[simp] theorem resetEngine_rkv (s : State) : (resetEngine s).rkv = State.reset.rkv := rfl
@[simp] theorem resetEngine_done (s : State) : (resetEngine s).done = State.reset.done := rfl
@[simp] theorem resetEngine_err (s : State) : (resetEngine s).err = State.reset.err := rfl
@[simp] theorem resetEngine_esticky (s : State) : (resetEngine s).esticky = State.reset.esticky := rfl
@[simp] theorem resetEngine_v0 (s : State) : (resetEngine s).v0 = State.reset.v0 := rfl
@[simp] theorem resetEngine_v1 (s : State) : (resetEngine s).v1 = State.reset.v1 := rfl
@[simp] theorem resetEngine_vr (s : State) : (resetEngine s).vr = State.reset.vr := rfl
@[simp] theorem resetEngine_ecode (s : State) : (resetEngine s).ecode = State.reset.ecode := rfl
@[simp] theorem resetEngine_lastop (s : State) : (resetEngine s).lastop = State.reset.lastop := rfl
@[simp] theorem resetEngine_pending (s : State) : (resetEngine s).pending = s.pending := rfl
@[simp] theorem resetEngine_rdata (s : State) : (resetEngine s).rdata = s.rdata := rfl

/-! ### `putOut0` -/

@[simp] theorem putOut0_cfg (v : Octet16) (s : State) : (putOut0 v s).cfg = s.cfg := rfl
@[simp] theorem putOut0_key (v : Octet16) (s : State) : (putOut0 v s).key = s.key := rfl
@[simp] theorem putOut0_ib (v : Octet16) (s : State) : (putOut0 v s).ib = s.ib := rfl
@[simp] theorem putOut0_out0 (v : Octet16) (s : State) : (putOut0 v s).out0 = v := rfl
@[simp] theorem putOut0_out1 (v : Octet16) (s : State) : (putOut0 v s).out1 = s.out1 := rfl
@[simp] theorem putOut0_res32 (v : Octet16) (s : State) : (putOut0 v s).res32 = s.res32 := rfl
@[simp] theorem putOut0_rk (v : Octet16) (s : State) : (putOut0 v s).rk = s.rk := rfl
@[simp] theorem putOut0_rkv (v : Octet16) (s : State) : (putOut0 v s).rkv = s.rkv := rfl
@[simp] theorem putOut0_done (v : Octet16) (s : State) : (putOut0 v s).done = s.done := rfl
@[simp] theorem putOut0_err (v : Octet16) (s : State) : (putOut0 v s).err = s.err := rfl
@[simp] theorem putOut0_esticky (v : Octet16) (s : State) : (putOut0 v s).esticky = s.esticky := rfl
@[simp] theorem putOut0_v0 (v : Octet16) (s : State) : (putOut0 v s).v0 = true := rfl
@[simp] theorem putOut0_v1 (v : Octet16) (s : State) : (putOut0 v s).v1 = s.v1 := rfl
@[simp] theorem putOut0_vr (v : Octet16) (s : State) : (putOut0 v s).vr = s.vr := rfl
@[simp] theorem putOut0_ecode (v : Octet16) (s : State) : (putOut0 v s).ecode = s.ecode := rfl
@[simp] theorem putOut0_lastop (v : Octet16) (s : State) : (putOut0 v s).lastop = s.lastop := rfl
@[simp] theorem putOut0_pending (v : Octet16) (s : State) : (putOut0 v s).pending = s.pending := rfl
@[simp] theorem putOut0_rdata (v : Octet16) (s : State) : (putOut0 v s).rdata = s.rdata := rfl

/-! ### `putOut1` -/

@[simp] theorem putOut1_cfg (v : Octet16) (s : State) : (putOut1 v s).cfg = s.cfg := rfl
@[simp] theorem putOut1_key (v : Octet16) (s : State) : (putOut1 v s).key = s.key := rfl
@[simp] theorem putOut1_ib (v : Octet16) (s : State) : (putOut1 v s).ib = s.ib := rfl
@[simp] theorem putOut1_out0 (v : Octet16) (s : State) : (putOut1 v s).out0 = s.out0 := rfl
@[simp] theorem putOut1_out1 (v : Octet16) (s : State) : (putOut1 v s).out1 = v := rfl
@[simp] theorem putOut1_res32 (v : Octet16) (s : State) : (putOut1 v s).res32 = s.res32 := rfl
@[simp] theorem putOut1_rk (v : Octet16) (s : State) : (putOut1 v s).rk = s.rk := rfl
@[simp] theorem putOut1_rkv (v : Octet16) (s : State) : (putOut1 v s).rkv = s.rkv := rfl
@[simp] theorem putOut1_done (v : Octet16) (s : State) : (putOut1 v s).done = s.done := rfl
@[simp] theorem putOut1_err (v : Octet16) (s : State) : (putOut1 v s).err = s.err := rfl
@[simp] theorem putOut1_esticky (v : Octet16) (s : State) : (putOut1 v s).esticky = s.esticky := rfl
@[simp] theorem putOut1_v0 (v : Octet16) (s : State) : (putOut1 v s).v0 = s.v0 := rfl
@[simp] theorem putOut1_v1 (v : Octet16) (s : State) : (putOut1 v s).v1 = true := rfl
@[simp] theorem putOut1_vr (v : Octet16) (s : State) : (putOut1 v s).vr = s.vr := rfl
@[simp] theorem putOut1_ecode (v : Octet16) (s : State) : (putOut1 v s).ecode = s.ecode := rfl
@[simp] theorem putOut1_lastop (v : Octet16) (s : State) : (putOut1 v s).lastop = s.lastop := rfl
@[simp] theorem putOut1_pending (v : Octet16) (s : State) : (putOut1 v s).pending = s.pending := rfl
@[simp] theorem putOut1_rdata (v : Octet16) (s : State) : (putOut1 v s).rdata = s.rdata := rfl

/-! ### `putRes32` -/

@[simp] theorem putRes32_cfg (v : Word32) (s : State) : (putRes32 v s).cfg = s.cfg := rfl
@[simp] theorem putRes32_key (v : Word32) (s : State) : (putRes32 v s).key = s.key := rfl
@[simp] theorem putRes32_ib (v : Word32) (s : State) : (putRes32 v s).ib = s.ib := rfl
@[simp] theorem putRes32_out0 (v : Word32) (s : State) : (putRes32 v s).out0 = s.out0 := rfl
@[simp] theorem putRes32_out1 (v : Word32) (s : State) : (putRes32 v s).out1 = s.out1 := rfl
@[simp] theorem putRes32_res32 (v : Word32) (s : State) : (putRes32 v s).res32 = v := rfl
@[simp] theorem putRes32_rk (v : Word32) (s : State) : (putRes32 v s).rk = s.rk := rfl
@[simp] theorem putRes32_rkv (v : Word32) (s : State) : (putRes32 v s).rkv = s.rkv := rfl
@[simp] theorem putRes32_done (v : Word32) (s : State) : (putRes32 v s).done = s.done := rfl
@[simp] theorem putRes32_err (v : Word32) (s : State) : (putRes32 v s).err = s.err := rfl
@[simp] theorem putRes32_esticky (v : Word32) (s : State) : (putRes32 v s).esticky = s.esticky := rfl
@[simp] theorem putRes32_v0 (v : Word32) (s : State) : (putRes32 v s).v0 = s.v0 := rfl
@[simp] theorem putRes32_v1 (v : Word32) (s : State) : (putRes32 v s).v1 = s.v1 := rfl
@[simp] theorem putRes32_vr (v : Word32) (s : State) : (putRes32 v s).vr = true := rfl
@[simp] theorem putRes32_ecode (v : Word32) (s : State) : (putRes32 v s).ecode = s.ecode := rfl
@[simp] theorem putRes32_lastop (v : Word32) (s : State) : (putRes32 v s).lastop = s.lastop := rfl
@[simp] theorem putRes32_pending (v : Word32) (s : State) : (putRes32 v s).pending = s.pending := rfl
@[simp] theorem putRes32_rdata (v : Word32) (s : State) : (putRes32 v s).rdata = s.rdata := rfl

/-! ### `putSchedule` -/

@[simp] theorem putSchedule_cfg (w : Vector Word32 44) (s : State) : (putSchedule w s).cfg = s.cfg := rfl
@[simp] theorem putSchedule_key (w : Vector Word32 44) (s : State) : (putSchedule w s).key = s.key := rfl
@[simp] theorem putSchedule_ib (w : Vector Word32 44) (s : State) : (putSchedule w s).ib = s.ib := rfl
@[simp] theorem putSchedule_out0 (w : Vector Word32 44) (s : State) : (putSchedule w s).out0 = s.out0 := rfl
@[simp] theorem putSchedule_out1 (w : Vector Word32 44) (s : State) : (putSchedule w s).out1 = s.out1 := rfl
@[simp] theorem putSchedule_res32 (w : Vector Word32 44) (s : State) : (putSchedule w s).res32 = s.res32 := rfl
@[simp] theorem putSchedule_rk (w : Vector Word32 44) (s : State) : (putSchedule w s).rk = w := rfl
@[simp] theorem putSchedule_rkv (w : Vector Word32 44) (s : State) : (putSchedule w s).rkv = true := rfl
@[simp] theorem putSchedule_done (w : Vector Word32 44) (s : State) : (putSchedule w s).done = s.done := rfl
@[simp] theorem putSchedule_err (w : Vector Word32 44) (s : State) : (putSchedule w s).err = s.err := rfl
@[simp] theorem putSchedule_esticky (w : Vector Word32 44) (s : State) : (putSchedule w s).esticky = s.esticky := rfl
@[simp] theorem putSchedule_v0 (w : Vector Word32 44) (s : State) : (putSchedule w s).v0 = s.v0 := rfl
@[simp] theorem putSchedule_v1 (w : Vector Word32 44) (s : State) : (putSchedule w s).v1 = s.v1 := rfl
@[simp] theorem putSchedule_vr (w : Vector Word32 44) (s : State) : (putSchedule w s).vr = s.vr := rfl
@[simp] theorem putSchedule_ecode (w : Vector Word32 44) (s : State) : (putSchedule w s).ecode = s.ecode := rfl
@[simp] theorem putSchedule_lastop (w : Vector Word32 44) (s : State) : (putSchedule w s).lastop = s.lastop := rfl
@[simp] theorem putSchedule_pending (w : Vector Word32 44) (s : State) : (putSchedule w s).pending = s.pending := rfl
@[simp] theorem putSchedule_rdata (w : Vector Word32 44) (s : State) : (putSchedule w s).rdata = s.rdata := rfl

/-! ### `takeEvent` -/

@[simp] theorem takeEvent_cfg (rest : List HostEvent) (s : State) : (takeEvent rest s).cfg = s.cfg := rfl
@[simp] theorem takeEvent_key (rest : List HostEvent) (s : State) : (takeEvent rest s).key = s.key := rfl
@[simp] theorem takeEvent_ib (rest : List HostEvent) (s : State) : (takeEvent rest s).ib = s.ib := rfl
@[simp] theorem takeEvent_out0 (rest : List HostEvent) (s : State) : (takeEvent rest s).out0 = s.out0 := rfl
@[simp] theorem takeEvent_out1 (rest : List HostEvent) (s : State) : (takeEvent rest s).out1 = s.out1 := rfl
@[simp] theorem takeEvent_res32 (rest : List HostEvent) (s : State) : (takeEvent rest s).res32 = s.res32 := rfl
@[simp] theorem takeEvent_rk (rest : List HostEvent) (s : State) : (takeEvent rest s).rk = s.rk := rfl
@[simp] theorem takeEvent_rkv (rest : List HostEvent) (s : State) : (takeEvent rest s).rkv = s.rkv := rfl
@[simp] theorem takeEvent_done (rest : List HostEvent) (s : State) : (takeEvent rest s).done = s.done := rfl
@[simp] theorem takeEvent_err (rest : List HostEvent) (s : State) : (takeEvent rest s).err = s.err := rfl
@[simp] theorem takeEvent_esticky (rest : List HostEvent) (s : State) : (takeEvent rest s).esticky = s.esticky := rfl
@[simp] theorem takeEvent_v0 (rest : List HostEvent) (s : State) : (takeEvent rest s).v0 = s.v0 := rfl
@[simp] theorem takeEvent_v1 (rest : List HostEvent) (s : State) : (takeEvent rest s).v1 = s.v1 := rfl
@[simp] theorem takeEvent_vr (rest : List HostEvent) (s : State) : (takeEvent rest s).vr = s.vr := rfl
@[simp] theorem takeEvent_ecode (rest : List HostEvent) (s : State) : (takeEvent rest s).ecode = s.ecode := rfl
@[simp] theorem takeEvent_lastop (rest : List HostEvent) (s : State) : (takeEvent rest s).lastop = s.lastop := rfl
@[simp] theorem takeEvent_pending (rest : List HostEvent) (s : State) : (takeEvent rest s).pending = rest := rfl
@[simp] theorem takeEvent_rdata (rest : List HostEvent) (s : State) : (takeEvent rest s).rdata = none := rfl

/-! ### `issueCommand` -/

@[simp] theorem issueCommand_cfg (c : Word32) (s : State) : (issueCommand c s).cfg = s.cfg := rfl
@[simp] theorem issueCommand_key (c : Word32) (s : State) : (issueCommand c s).key = s.key := rfl
@[simp] theorem issueCommand_ib (c : Word32) (s : State) : (issueCommand c s).ib = s.ib := rfl
@[simp] theorem issueCommand_out0 (c : Word32) (s : State) : (issueCommand c s).out0 = s.out0 := rfl
@[simp] theorem issueCommand_out1 (c : Word32) (s : State) : (issueCommand c s).out1 = s.out1 := rfl
@[simp] theorem issueCommand_res32 (c : Word32) (s : State) : (issueCommand c s).res32 = s.res32 := rfl
@[simp] theorem issueCommand_rk (c : Word32) (s : State) : (issueCommand c s).rk = s.rk := rfl
@[simp] theorem issueCommand_rkv (c : Word32) (s : State) : (issueCommand c s).rkv = s.rkv := rfl
@[simp] theorem issueCommand_done (c : Word32) (s : State) : (issueCommand c s).done = s.done := rfl
@[simp] theorem issueCommand_err (c : Word32) (s : State) : (issueCommand c s).err = s.err := rfl
@[simp] theorem issueCommand_esticky (c : Word32) (s : State) : (issueCommand c s).esticky = s.esticky := rfl
@[simp] theorem issueCommand_v0 (c : Word32) (s : State) : (issueCommand c s).v0 = s.v0 := rfl
@[simp] theorem issueCommand_v1 (c : Word32) (s : State) : (issueCommand c s).v1 = s.v1 := rfl
@[simp] theorem issueCommand_vr (c : Word32) (s : State) : (issueCommand c s).vr = s.vr := rfl
@[simp] theorem issueCommand_ecode (c : Word32) (s : State) : (issueCommand c s).ecode = s.ecode := rfl
@[simp] theorem issueCommand_lastop (c : Word32) (s : State) : (issueCommand c s).lastop = s.lastop := rfl
@[simp] theorem issueCommand_pending (c : Word32) (s : State) : (issueCommand c s).pending = HostEvent.write 0x000 4 c :: s.pending := rfl
@[simp] theorem issueCommand_rdata (c : Word32) (s : State) : (issueCommand c s).rdata = s.rdata := rfl

end Sys2Proof.Machine
end

