-- ==== Sys2Proof/Laws/Step.lean ====
section
/-! SUPPORT. Once for all what the shared operations do: the window's accesses, one command, one host event, one
step. Later proofs cite these instead of unfolding the definitions. -/

namespace Sys2Proof.Machine

/-- The legal accesses are those R59 does not list as illegal. -/
theorem legalAccess_iff (msgMax off size : Nat) :
    legalAccess msgMax off size = true ↔ ¬ IllegalAccess msgMax off size := by
  unfold legalAccess IllegalAccess regionOf
  split_ifs <;> simp [Region.isBytes, Region.isWord] <;> omega

/-- The writer of a byte leaves everything but `KEY` and `IB` as it was. -/
theorem putByte_cases (off : Nat) (v : Byte) (s : State) :
    (regionOf s.cfg.msgMax off = .key ∧
      putByte off v s = { s with key := s.key.setIfInBounds (off - 0x010) v }) ∨
    (regionOf s.cfg.msgMax off = .ib ∧ putByte off v s = { s with ib := s.ib.write (off - 0x100) v }) ∨
    (regionOf s.cfg.msgMax off ≠ .key ∧ regionOf s.cfg.msgMax off ≠ .ib ∧ putByte off v s = s) := by
  unfold putByte
  split <;> simp_all

/-- Whatever a byte write does, it is an update of `KEY` and `IB`. -/
theorem putByte_frame (off : Nat) (v : Byte) (s : State) :
    ∃ key ib, putByte off v s = { s with key := key, ib := ib } := by
  rcases putByte_cases off v s with ⟨-, h⟩ | ⟨-, h⟩ | ⟨-, -, h⟩
  · exact ⟨_, s.ib, h⟩
  · exact ⟨s.key, _, h⟩
  · exact ⟨s.key, s.ib, h⟩

/-- Whatever a word write does, it is an update of `KEY` and `IB`. -/
theorem putWord_frame (off : Nat) (v : Word32) (s : State) :
    ∃ key ib, putWord off v s = { s with key := key, ib := ib } := by
  obtain ⟨k0, m0, h0⟩ := putByte_frame off (busByte v 0) s
  obtain ⟨k1, m1, h1⟩ := putByte_frame (off + 1) (busByte v 1) (putByte off (busByte v 0) s)
  obtain ⟨k2, m2, h2⟩ := putByte_frame (off + 2) (busByte v 2)
    (putByte (off + 1) (busByte v 1) (putByte off (busByte v 0) s))
  obtain ⟨k3, m3, h3⟩ := putByte_frame (off + 3) (busByte v 3)
    (putByte (off + 2) (busByte v 2) (putByte (off + 1) (busByte v 1) (putByte off (busByte v 0) s)))
  exact ⟨k3, m3, by rw [putWord, h3, h2, h1, h0]⟩

/-- A refusal in the terms of the claims. -/
theorem refuse_eq_refusedWith (op code : Byte) (s : State) : refuse op code s = refusedWith op code s := rfl

/-- Why a command is turned away, and its code (R252 steps 5 to 7). -/
inductive TurnedAway : Instr → State → Byte → Prop where
  /-- `SETKEY` with a length that is not 16. -/
  | keyLength (len : Nat) (s : State) (h : len ≠ 16) : TurnedAway (.setkey len) s eKeyLen
  /-- `CMAC` with a message the buffer cannot hold. -/
  | messageLength (len : Nat) (s : State) (h : s.cfg.msgMax < len) : TurnedAway (.cmac len) s eMsgLen
  /-- `ENCRYPT` with no schedule loaded. -/
  | noSchedule (s : State) (h : s.rkv = false) : TurnedAway .encrypt s eNoKey

/-- With the modulus R5 fixes, g2 is below 1,000,000 (R25, R194). -/
theorem g2_lt_of_valid {cfg : Config} (u v : Bytes 32) (x y : Octet16) (h : cfg.Valid) : g2 cfg u v x y < 1000000 := by
  rw [g2, h.2.2.2.2]
  exact Nat.mod_lt _ (by decide)

/-- What a command does: it resets, or is turned away, or loads a schedule, or leaves results in the way R87 says,
everything else as the frame has it. -/
theorem exec_cases (i : Instr) (s : State) :
    (i = .clr ∧ exec i s = .next (resetEngine s)) ∨
    (∃ code, TurnedAway i s code ∧ exec i s = .next (refusedWith i.opcode code s)) ∨
    (i = .setkey 16 ∧ exec i s = .next (executed 0x01#8 zero128 zero128 0#32 false false false
      { s with rk := keyExpansion s.key, rkv := true })) ∨
    (i = .g2 ∧ ∃ n, (s.cfg.Valid → n < 1000000) ∧
      exec i s = .next (executed 0x13#8 zero128 zero128 (BitVec.ofNat 32 n) false false true s)) ∨
    ((i = .subkey ∨ i = .f5) ∧ ∃ o0 o1, exec i s = .next (executed i.opcode o0 o1 0#32 true true false s)) ∨
    ((∀ len, i ≠ .setkey len) ∧ i ≠ .g2 ∧ i ≠ .subkey ∧ i ≠ .f5 ∧ i ≠ .clr ∧
      ∃ o0, exec i s = .next (executed i.opcode o0 zero128 0#32 true false false s)) := by
  cases i with
  | setkey len =>
    by_cases h : len = 16
    · subst h
      exact .inr (.inr (.inl ⟨rfl, rfl⟩))
    · exact .inr (.inl ⟨_, .keyLength len s h, by simp [exec, execSetkey, h, refuse_eq_refusedWith, Instr.opcode]⟩)
  | encrypt =>
    by_cases h : s.rkv = true
    · refine .inr (.inr (.inr (.inr (.inr ⟨by simp, by simp, by simp, by simp, by simp,
        cipher s.rk (slotAes 16 0 s), ?_⟩))))
      simp only [exec, execEncrypt, h, if_true]
      rfl
    · have h' : s.rkv = false := by simpa using h
      exact .inr (.inl ⟨_, .noSchedule s h', by simp [exec, execEncrypt, h', refuse_eq_refusedWith, Instr.opcode]⟩)
  | cmac len =>
    by_cases h : s.cfg.msgMax < len
    · exact .inr (.inl ⟨_, .messageLength len s h,
        by simp [exec, execCmac, h, refuse_eq_refusedWith, Instr.opcode]⟩)
    · refine .inr (.inr (.inr (.inr (.inr ⟨by simp, by simp, by simp, by simp, by simp,
        rev (cmac (keySpec s) (messageSpec len s)), ?_⟩))))
      simp only [exec, execCmac, h, if_false]
      rfl
  | clr => exact .inl ⟨rfl, rfl⟩
  | g2 => exact .inr (.inr (.inr (.inl ⟨rfl,
    g2 s.cfg (slotSpec 32 0 s) (slotSpec 32 32 s) (keySpec s) (slotSpec 16 64 s), g2_lt_of_valid _ _ _ _, rfl⟩)))
  | subkey => exact .inr (.inr (.inr (.inr (.inl ⟨.inl rfl, _, _, rfl⟩))))
  | f5 => exact .inr (.inr (.inr (.inr (.inl ⟨.inr rfl, _, _, rfl⟩))))
  | _ => exact .inr (.inr (.inr (.inr (.inr ⟨by simp, by simp, by simp, by simp, by simp, _, rfl⟩))))

/-- No command stops the machine. -/
theorem exec_total (i : Instr) (s : State) : ∃ t, exec i s = .next t := by
  rcases exec_cases i s with ⟨-, h⟩ | ⟨_, -, h⟩ | ⟨-, h⟩ | ⟨-, _, -, h⟩ | ⟨-, _, _, h⟩ | ⟨-, -, -, -, -, _, h⟩ <;>
    exact ⟨_, h⟩

/-- No command word stops the machine. -/
theorem deliver_total (c : Word32) (s : State) : ∃ t, deliver c s = .next t := by
  unfold deliver
  split
  · exact exec_total _ _
  · exact ⟨_, rfl⟩

/-- A legal read returns its value; an illegal one is refused (R55, R57, R59). -/
theorem hostEvent_read (off size : Nat) (s : State) :
    hostEvent (.read off size) s =
      if legalAccess s.cfg.msgMax off size then .next (hostRead off size s)
      else .refused (.illegalAccess (.read off size)) := rfl

/-- A legal write is done; an illegal one is refused (R56, R58, R59). -/
theorem hostEvent_write (off size : Nat) (v : Word32) (s : State) :
    hostEvent (.write off size v) s =
      if legalAccess s.cfg.msgMax off size then hostWrite off size v s
      else .refused (.illegalAccess (.write off size v)) := rfl

/-- What a host event that has a next state was. -/
theorem hostEvent_cases {e : HostEvent} {s t : State} (h : hostEvent e s = .next t) :
    (∃ off size, e = .read off size ∧ ¬ IllegalAccess s.cfg.msgMax off size ∧ t = hostRead off size s) ∨
    (∃ off v, e = .write off 1 v ∧ ¬ IllegalAccess s.cfg.msgMax off 1 ∧ t = putByte off (busByte v 0) s) ∨
    (∃ off v, e = .write off 4 v ∧ ¬ IllegalAccess s.cfg.msgMax off 4 ∧ off ≠ 0 ∧ t = putWord off v s) ∨
    (∃ c, e = .write 0x000 4 c ∧ deliver c s = .next t) ∨
    (e = .hardReset ∧ t = resetEngine s) := by
  cases e with
  | read off size =>
    rw [hostEvent_read] at h
    split at h
    · next hl =>
      cases h
      exact .inl ⟨off, size, rfl, (legalAccess_iff ..).1 hl, rfl⟩
    · cases h
  | write off size v =>
    rw [hostEvent_write] at h
    split at h
    · next hl =>
      have hl := (legalAccess_iff ..).1 hl
      unfold hostWrite at h
      split at h
      · next h1 =>
        subst h1
        cases h
        exact .inr (.inl ⟨off, v, rfl, hl, rfl⟩)
      · next h1 =>
        have h4 : size = 4 := by
          by_contra h4
          exact hl (.inl ⟨h1, h4⟩)
        subst h4
        split at h
        · next h0 =>
          subst h0
          exact .inr (.inr (.inr (.inl ⟨v, rfl, h⟩)))
        · next h0 =>
          cases h
          exact .inr (.inr (.inl ⟨off, v, rfl, hl, h0, rfl⟩))
    · cases h
  | hardReset =>
    cases h
    exact .inr (.inr (.inr (.inr ⟨rfl, rfl⟩)))

/-- A step with nothing pending changes nothing. -/
theorem step_of_idle {s : State} (h : s.pending = []) : step s = .next s := by
  unfold step
  rw [h]

/-- A step with an event pending performs it. -/
theorem step_of_event {s : State} {e : HostEvent} {rest : List HostEvent} (h : s.pending = e :: rest) :
    step s = hostEvent e (takeEvent rest s) := by
  unfold step
  rw [h]

/-- What a step that has a next state did. -/
theorem step_cases {s t : State} (h : step s = .next t) :
    (s.pending = [] ∧ t = s) ∨
    (∃ e rest, s.pending = e :: rest ∧ hostEvent e (takeEvent rest s) = .next t) := by
  cases hp : s.pending with
  | nil =>
    rw [step_of_idle hp] at h
    cases h
    exact .inl ⟨rfl, rfl⟩
  | cons e rest => exact .inr ⟨e, rest, rfl, (step_of_event hp).symm.trans h⟩

/-- A 32-bit write to `CMD` delivers its word. -/
theorem step_of_command {s : State} {c : Word32} {rest : List HostEvent}
    (h : s.pending = .write 0x000 4 c :: rest) : step s = deliver c (takeEvent rest s) := by
  rw [step_of_event h]
  rfl

/-- Every address outside the illegal ones completes: a legal event has a next state. -/
theorem hostEvent_write_total {off size : Nat} {v : Word32} {s : State}
    (h : ¬ IllegalAccess s.cfg.msgMax off size) : ∃ t, hostEvent (.write off size v) s = .next t := by
  rw [hostEvent_write, if_pos ((legalAccess_iff ..).2 h)]
  unfold hostWrite
  split
  · exact ⟨_, rfl⟩
  · split
    · exact deliver_total _ _
    · exact ⟨_, rfl⟩

end Sys2Proof.Machine
end

