-- ==== Sys2Proof/Laws/Command.lean ====
section
/-! SUPPORT. One equation for each command: what `exec` answers, in the terms of the claims (`executed`,
`refusedWith`). Later proofs rewrite with these and never unfold a meaning: unfolding one invites the kernel to evaluate
the cipher. -/

namespace Sys2Proof.Machine

/-- What `SETKEY` answers. -/
theorem exec_setkey (s : State) (len : Nat) :
    exec (.setkey len) s = .next
      (if len = 16 then
        executed 0x01#8 zero128 zero128 0#32 false false false { s with rk := keyExpansion s.key, rkv := true }
      else refusedWith 0x01#8 eKeyLen s) := by
  by_cases h : len = 16
  · subst h; rfl
  · simp only [exec, execSetkey, h, ne_eq, not_false_eq_true, if_true, if_false]; rfl

/-- What `ENCRYPT` answers. -/
theorem exec_encrypt (s : State) :
    exec .encrypt s = .next
      (if s.rkv then executed 0x02#8 (cipher s.rk (slotAes 16 0 s)) zero128 0#32 true false false s
      else refusedWith 0x02#8 eNoKey s) := by
  simp only [exec, execEncrypt]
  split <;> rfl

/-- What `AES128` answers. -/
theorem exec_aes128 (s : State) :
    exec .aes128 s = .next
      (executed 0x03#8 (rev (aesEnc (keySpec s) (slotSpec 16 0 s))) zero128 0#32 true false false s) := rfl

/-- What `CMAC` answers. -/
theorem exec_cmac (s : State) (len : Nat) :
    exec (.cmac len) s = .next
      (if s.cfg.msgMax < len then refusedWith 0x04#8 eMsgLen s
      else executed 0x04#8 (rev (cmac (keySpec s) (messageSpec len s))) zero128 0#32 true false false s) := by
  simp only [exec, execCmac]
  split <;> rfl

/-- What `DBL` answers. -/
theorem exec_dbl (s : State) :
    exec .dbl s = .next
      (executed 0x05#8 (rev (double (slotSpec 16 0 s))) zero128 0#32 true false false s) := rfl

/-- What `SUBKEY` answers. -/
theorem exec_subkey (s : State) :
    exec .subkey s = .next
      (executed 0x06#8 (rev (subkey1 (keySpec s))) (rev (subkey2 (keySpec s))) 0#32 true true false s) := rfl

/-- What `CLR` answers. -/
theorem exec_clr (s : State) : exec .clr s = .next (resetEngine s) := rfl

/-- What `F4` answers. -/
theorem exec_f4 (s : State) :
    exec .f4 s = .next
      (executed 0x10#8 (rev (f4 (slotSpec 32 0 s) (slotSpec 32 32 s) (keySpec s) (slotAes 1 64 s)))
        zero128 0#32 true false false s) := rfl

/-- What `F5` answers. -/
theorem exec_f5 (s : State) :
    exec .f5 s = .next
      (executed 0x11#8 (rev (f5OfSlots s).1) (rev (f5OfSlots s).2) 0#32 true true false s) := rfl

/-- What `F6` answers. -/
theorem exec_f6 (s : State) : exec .f6 s = .next
    (executed 0x12#8 (rev (f6 (keySpec s) (slotSpec 16 0 s) (slotSpec 16 16 s) (slotSpec 16 32 s) (slotSpec 3 48 s)
    (slotSpec 7 56 s) (slotSpec 7 64 s))) zero128 0#32 true false false s) := rfl

/-- What `G2` answers. -/
theorem exec_g2 (s : State) :
    exec .g2 s = .next
      (executed 0x13#8 zero128 zero128
        (BitVec.ofNat 32 (g2 s.cfg (slotSpec 32 0 s) (slotSpec 32 32 s) (keySpec s) (slotSpec 16 64 s)))
        false false true s) := rfl

/-- What `H6` answers. -/
theorem exec_h6 (s : State) :
    exec .h6 s = .next
      (executed 0x14#8 (rev (h6 (keySpec s) (slotSpec 4 0 s))) zero128 0#32 true false false s) := rfl

/-- What `H7` answers. -/
theorem exec_h7 (s : State) :
    exec .h7 s = .next
      (executed 0x15#8 (rev (h7 (keySpec s) (slotSpec 16 0 s))) zero128 0#32 true false false s) := rfl

/-- What `AH` answers. -/
theorem exec_ah (s : State) :
    exec .ah s = .next
      (executed 0x16#8 (lowBytes3 (rev (ah (keySpec s) (slotSpec 3 0 s)))) zero128 0#32 true false false s) := rfl

/-- What `LTK2LK` answers. -/
theorem exec_ltk2lk (s : State) (b : Bool) :
    exec (.ltk2lk b) s = .next
      (executed 0x18#8 (rev (ltkToLinkKey s.cfg (slotSpec 16 0 s) b)) zero128 0#32 true false false s) := rfl

/-- What `LK2LTK` answers. -/
theorem exec_lk2ltk (s : State) (b : Bool) :
    exec (.lk2ltk b) s = .next
      (executed 0x19#8 (rev (linkKeyToLtk s.cfg (slotSpec 16 0 s) b)) zero128 0#32 true false false s) := rfl

/-- Whatever rule runs, it changes results, valid flags and the bank only. -/
theorem runRule_frame (c : Word32) (s : State) :
    ∃ o0 o1 r rk rkv v0 v1 vr, runRule c s =
      { s with out0 := o0, out1 := o1, res32 := r, rk := rk, rkv := rkv, v0 := v0, v1 := v1, vr := vr } := by
  unfold runRule
  split
  all_goals exact ⟨_, _, _, _, _, _, _, _, rfl⟩

/-- The operand a command reads from a slot is the field the slot holds. -/
theorem slotSpec_of_slotField {n lo : Nat} {s : State} {u : Bytes n} (h : SlotField lo s u) : slotSpec n lo s = u := by
  apply bytes_ext
  intro i
  simpa using h i

/-- The operand a command reads from `KEY` is the value it holds. -/
theorem keySpec_of_keyField {s : State} {u : Octet16} (h : KeyField s u) : keySpec s = u := by
  apply bytes_ext
  intro i
  simpa using h i

/-- A one-byte slot reads the same in both orders. -/
theorem slotAes_of_slotField {lo : Nat} {s : State} {u : Bytes 1} (h : SlotField lo s u) : slotAes 1 lo s = u := by
  apply bytes_ext
  intro i
  have := h i
  simpa using this

/-- The message `CMAC` reads is the one the buffer holds. -/
theorem messageSpec_of_bufferMessage {s : State} {m : List Byte} (h : BufferMessage s m) :
    messageSpec m.length s = m := by
  apply List.ext_getElem <;> simp
  intro i h1
  rw [messageSpec_getElem _ _ _ (by simpa)]
  exact h i h1

/-- Buffers that agree on a slot give the same operand. -/
theorem slotSpec_congr {n lo : Nat} {s t : State}
    (h : ∀ j, lo ≤ j → j < lo + n → s.ib.read j = t.ib.read j) : slotSpec n lo s = slotSpec n lo t := by
  apply bytes_ext
  intro i
  simp
  exact h _ (by omega) (by omega)

/-- Buffers that agree on a slot give the same operand. -/
theorem slotAes_congr {n lo : Nat} {s t : State}
    (h : ∀ j, lo ≤ j → j < lo + n → s.ib.read j = t.ib.read j) : slotAes n lo s = slotAes n lo t := by
  apply bytes_ext
  intro i
  simp
  exact h _ (by omega) (by omega)

/-- Buffers that agree on a slot give the same operand. -/
theorem messageSpec_congr {n : Nat} {s t : State} (h : ∀ j, j < n → s.ib.read j = t.ib.read j) :
    messageSpec n s = messageSpec n t := by
  apply List.ext_getElem <;> simp
  intro i hi
  rw [messageSpec_getElem _ _ _ (by simpa), messageSpec_getElem _ _ _ (by simpa)]
  exact h _ (by omega)

end Sys2Proof.Machine
end

