-- ==== Sys2Proof/Laws/Memory.lean ====
section
/-! SUPPORT. The laws of the buffer `IB`: a read after a write, and that every operation keeps the canonical form. -/

namespace Sys2Proof.Machine

/-- The tail of a canonical buffer is canonical. -/
theorem Memory.wf_tail {cell : Host.Cell} {m : Memory} (h : Memory.wf (cell :: m)) : Memory.wf m :=
  ⟨(List.pairwise_cons.1 h.1).2, fun c hc => h.2 c (List.mem_cons_of_mem _ hc)⟩

/-- Below the first listed index every byte reads as unlisted. -/
theorem Memory.read_below {m : Memory} {i : Nat} (h : ∀ cell ∈ m, i < cell.1) : m.read i = unlistedByte := by
  induction m with
  | nil => rfl
  | cons c m ih =>
    have hc := h c (List.mem_cons_self ..)
    rw [Memory.read, if_neg (by omega)]
    exact ih fun d hd => h d (List.mem_cons_of_mem _ hd)

/-- A byte that is listed is listed at its index only (the canonical form). -/
theorem Memory.read_head {a : Nat} {b : Byte} {m : Memory} : Memory.read ((a, b) :: m) a = b := by
  simp [Memory.read]

/-- Read after write: the byte written at its index, the old byte anywhere else. -/
theorem Memory.read_write {m : Memory} (hm : m.wf) (i : Nat) (v : Byte) (j : Nat) :
    (m.write i v).read j = if j = i then v else m.read j := by
  induction m with
  | nil =>
    by_cases hv : v = unlistedByte
    · simp [Memory.write, Memory.read, hv]
    · by_cases hj : j = i
      · simp [Memory.write, Memory.read, hv, hj]
      · simp [Memory.write, Memory.read, hv, hj, Ne.symm hj]
  | cons c m ih =>
    obtain ⟨a, b⟩ := c
    have htail := Memory.wf_tail hm
    have hlt : ∀ cell ∈ m, a < cell.1 := fun cell hc => (List.pairwise_cons.1 hm.1).1 cell hc
    rw [Memory.write]
    split
    · next h =>
      by_cases ha : a = j
      · subst ha
        simp [Memory.read, show a ≠ i by omega]
      · simp [Memory.read, ha, ih htail]
    · next h =>
      split
      · next h2 =>
        subst h2
        split
        · next hv =>
          by_cases hj : j = a
          · subst hj
            simp [Memory.read_below hlt, hv]
          · simp [Memory.read, hj, Ne.symm hj]
        · by_cases hj : j = a
          · simp [Memory.read, hj]
          · simp [Memory.read, hj, Ne.symm hj]
      · next h2 =>
        have hi : i < a := by omega
        have hbelow : Memory.read ((a, b) :: m) i = unlistedByte := by
          refine Memory.read_below fun cell hc => ?_
          rcases List.mem_cons.1 hc with rfl | hc
          · exact hi
          · exact Nat.lt_trans hi (hlt cell hc)
        split
        · next hv =>
          by_cases hj : j = i
          · subst hj
            simp [hbelow, hv]
          · simp [hj]
        · by_cases hj : j = i
          · simp [Memory.read, hj]
          · rw [Memory.read, if_neg (Ne.symm hj), if_neg hj]

/-- The entries of a written buffer are old entries or the one written. -/
theorem Memory.mem_write {m : Memory} {i : Nat} {v : Byte} {cell : Host.Cell} (h : cell ∈ m.write i v) :
    cell ∈ m ∨ (cell = (i, v) ∧ v ≠ unlistedByte) := by
  induction m with
  | nil =>
    rw [Memory.write] at h
    split at h
    · simp at h
    · next hv => exact Or.inr ⟨by simpa using h, hv⟩
  | cons c m ih =>
    obtain ⟨a, b⟩ := c
    rw [Memory.write] at h
    split at h
    · rcases List.mem_cons.1 h with h | h
      · exact Or.inl (by simp [h])
      · exact (ih h).imp_left (List.mem_cons_of_mem _)
    · split at h
      · split at h
        · exact Or.inl (List.mem_cons_of_mem _ h)
        · next hv =>
          rcases List.mem_cons.1 h with h | h
          · exact Or.inr ⟨h, hv⟩
          · exact Or.inl (List.mem_cons_of_mem _ h)
      · split at h
        · exact Or.inl h
        · next hv =>
          rcases List.mem_cons.1 h with h | h
          · exact Or.inr ⟨h, hv⟩
          · exact Or.inl h

/-- A write keeps the canonical form. -/
theorem Memory.wf_write {m : Memory} (hm : m.wf) (i : Nat) (v : Byte) : (m.write i v).wf := by
  refine ⟨?_, fun cell hc => ?_⟩
  · induction m with
    | nil =>
      rw [Memory.write]
      split <;> simp
    | cons c m ih =>
      obtain ⟨a, b⟩ := c
      have hlt := (List.pairwise_cons.1 hm.1).1
      have hpm := (List.pairwise_cons.1 hm.1).2
      rw [Memory.write]
      split
      · next h =>
        refine List.pairwise_cons.2 ⟨fun cell hc => ?_, ih (Memory.wf_tail hm)⟩
        rcases Memory.mem_write hc with hc | ⟨rfl, -⟩
        · exact hlt cell hc
        · exact h
      · split
        · next h2 =>
          split
          · exact hpm
          · exact List.pairwise_cons.2 ⟨fun cell hc => h2 ▸ hlt cell hc, hpm⟩
        · split
          · exact hm.1
          · next h h2 _ =>
            refine List.pairwise_cons.2 ⟨fun cell hc => ?_, hm.1⟩
            rcases List.mem_cons.1 hc with rfl | hc
            · show i < a
              omega
            · have : a < cell.1 := hlt cell hc
              show i < cell.1
              omega
  · rcases Memory.mem_write hc with hc | ⟨rfl, hv⟩
    · exact hm.2 cell hc
    · exact hv

/-- The buffer after reset is in canonical form. -/
theorem State.reset_ib_wf : State.reset.ib.wf := by
  simp [State.reset, Memory.wf]

end Sys2Proof.Machine
end

