-- ==== Sys2Proof/Tests/Slice0.lean ====
section
/-! SUPPORT. Tests of single steps and of single functions. Every expected value is from `95_test_vectors.md` or from
the worked example of the rule named; none was computed with this model. The theorems `wit_<Name>` show, for the
obligation of that name, a concrete state and operands that meet all its hypotheses together, at the boundary of each
clause; their operands are the vectors' as well. -/

namespace Sys2Proof.Tests

set_option Elab.async false

open Sys2Proof.Machine

/-- `IB` holding the given bytes from index 0 on. -/
def bufferOf (l : List Byte) : Memory := l.zipIdx.foldl (fun m x => m.write x.2 x.1) []

/-- A freshly reset instance with `KEY` and `IB` loaded; register values as printed, lowest offset first. -/
def loaded (key : Nat) (ib : List Byte) : State :=
  { State.reset with key := specBytes 16 key, ib := bufferOf ib }

/-- The state after one step that delivers the command word. -/
def afterCommand (c : Word32) (s : State) : Option State :=
  match step (issueCommand c s) with
  | .next t => some t
  | .fault _ => none
  | .refused _ => none

/-- `OUT0` and `STATUS` after one command. -/
def out0Status (c : Word32) (s : State) : Option (List Byte × Word32) :=
  (afterCommand c s).map fun t => (t.out0.toList, statusWord t)

/-- `OUT0`, `OUT1` and `STATUS` after one command. -/
def results (c : Word32) (s : State) : Option (List Byte × List Byte × Word32) :=
  (afterCommand c s).map fun t => (t.out0.toList, t.out1.toList, statusWord t)

/-- The bytes of a printed value, first byte first. -/
def hex (n v : Nat) : List Byte := (specBytes n v).toList

/-! ### Ill-formed terms (R81) -/

theorem test_wellFormed_setkey_len : Instr.wellFormed (.setkey 65536) = false := by decide

theorem test_wellFormed_cmac_len : Instr.wellFormed (.cmac 65536) = false := by decide

theorem test_wellFormed_boundary :
    Instr.wellFormed (.setkey 65535) = true ∧ Instr.wellFormed (.cmac 65535) = true := by decide

/-! ### Decoding: the words of R83 and R88, and the reserved words of R253 -/

theorem test_decode_aes_family :
    decode 0x00100001#32 = .ok (.setkey 16) ∧ decode 0x00000002#32 = .ok .encrypt ∧
      decode 0x00000003#32 = .ok .aes128 := by decide

theorem test_decode_cmac_family :
    decode 0x00280004#32 = .ok (.cmac 40) ∧ decode 0x00000004#32 = .ok (.cmac 0) ∧
      decode 0x00000005#32 = .ok .dbl ∧ decode 0x00000006#32 = .ok .subkey := by decide

theorem test_decode_clr : decode 0x00000007#32 = .ok .clr := by decide

theorem test_decode_derivation_family :
    decode 0x00000010#32 = .ok .f4 ∧ decode 0x00000011#32 = .ok .f5 ∧ decode 0x00000012#32 = .ok .f6 ∧
      decode 0x00000013#32 = .ok .g2 ∧ decode 0x00000014#32 = .ok .h6 ∧ decode 0x00000015#32 = .ok .h7 ∧
      decode 0x00000016#32 = .ok .ah := by decide

theorem test_decode_keyconv_family :
    decode 0x00000118#32 = .ok (.ltk2lk true) ∧ decode 0x00000018#32 = .ok (.ltk2lk false) ∧
      decode 0x00000119#32 = .ok (.lk2ltk true) ∧ decode 0x00000019#32 = .ok (.lk2ltk false) := by decide

theorem test_decode_rejects :
    decode 0xFFFF0009#32 = .error .unassignedOpcode ∧ decode 0x00000000#32 = .error .unassignedOpcode ∧
      decode 0xFFFF0201#32 = .error .reservedFieldSet ∧ decode 0x00000102#32 = .error .reservedFieldSet ∧
      decode 0x00010118#32 = .error .reservedFieldSet := by decide

theorem test_decodeTableWord :
    decodeTableWord 32 0x00000019 = some (.lk2ltk false) ∧ decodeTableWord 32 0x00000017 = none := by decide

/-! ### AES (sections 2.1, 2.9; R113, R115, R119, R122 to R124) -/

theorem test_sbox_examples : sbox 0x00#8 = 0x63#8 ∧ sbox 0x53#8 = 0xed#8 ∧ sbox 0xff#8 = 0x16#8 := by decide

theorem test_mixColumn_example :
    (mixRow 0 0xd4#8 0xbf#8 0x5d#8 0x30#8, mixRow 1 0xd4#8 0xbf#8 0x5d#8 0x30#8,
      mixRow 2 0xd4#8 0xbf#8 0x5d#8 0x30#8, mixRow 3 0xd4#8 0xbf#8 0x5d#8 0x30#8)
      = (0x04#8, 0x66#8, 0x81#8, 0xe5#8) := by decide

theorem test_shiftRows_order :
    (shiftRows (specBytes 16 0x000102030405060708090a0b0c0d0e0f)).toList
      = [0, 5, 10, 15, 4, 9, 14, 3, 8, 13, 2, 7, 12, 1, 6, 11] := by decide +kernel

theorem test_setkey :
    (afterCommand 0x00100001#32 (loaded 0x000102030405060708090a0b0c0d0e0f [])).map
      (fun t => (t.rk.toList.drop 40, statusWord t))
      = some ([0x13111d7f#32, 0xe3944a17#32, 0xf307a78b#32, 0x4d2b30c5#32], 0x00010009#32) := by decide +kernel

theorem test_setkey_refuses_15 :
    out0Status 0x000f0001#32 (loaded 0 []) = some (hex 16 0, 0x00010306#32) := by decide +kernel

theorem test_encrypt :
    out0Status 0x00000002#32
      { loaded 0 (hex 16 0x00112233445566778899aabbccddeeff) with
        rk := keyExpansion (specBytes 16 0x000102030405060708090a0b0c0d0e0f), rkv := true }
      = some (hex 16 0x69c4e0d86a7b0430d8cdb78070b4c55a, 0x00020019#32) := by decide +kernel

theorem test_encrypt_no_key : out0Status 0x00000002#32 State.reset = some (hex 16 0, 0x00020506#32) := by
  decide +kernel

theorem test_aes128 :
    out0Status 0x00000003#32
      (loaded 0x0f0e0d0c0b0a09080706050403020100 (hex 16 0xffeeddccbbaa99887766554433221100))
      = some (hex 16 0x5ac5b47080b7cdd830047b6ad8e0c469, 0x00030011#32) := by decide +kernel

/-! ### Doubler, subkeys, CMAC (sections 2.2, 2.3, 2.9) -/

theorem test_double_reduction_in_second_step :
    double (double (specBytes 16 (0x40 <<< 120))) = specBytes 16 0x87 ∧
      double (double (specBytes 16 (0xc0 <<< 120))) = specBytes 16 0x189 := by decide +kernel

theorem test_dbl :
    out0Status 0x00000005#32 (loaded 0 (hex 16 0x6f541bb947f0423eb399b81a0c6bf77d))
      = some (hex 16 0xdea836728fe0857c6633713518d6eefb, 0x00050011#32) := by decide +kernel

theorem test_dbl_top_bit :
    out0Status 0x00000005#32 (loaded 0 (hex 16 0x80)) = some (hex 16 (0x87 <<< 120), 0x00050011#32) := by
  decide +kernel

theorem test_subkey :
    results 0x00000006#32 (loaded 0x3c4fcf098815f7aba6d2ae2816157e2b [])
      = some (hex 16 0xdea836728fe0857c6633713518d6eefb, hex 16 0x3b516de41ec10bf9cc66e26a30acddf7, 0x00060031#32) := by
  decide +kernel

theorem test_cmac_empty :
    out0Status 0x00000004#32 (loaded 0x3c4fcf098815f7aba6d2ae2816157e2b [])
      = some (hex 16 0x4667759b127da37f283759e929691dbb, 0x00040011#32) := by decide +kernel

theorem test_cmac_40 :
    out0Status 0x00280004#32 (loaded 0x3c4fcf098815f7aba6d2ae2816157e2b
      (hex 40 0x11e45ca3461cc830518eaf45ac6fb79e9cac031e578a2dae2a179373117e3de9969f402ee2bec16b))
      = some (hex 16 0x27c897146132ca3030e69ade4767a6df, 0x00040011#32) := by decide +kernel

/-! ### Derivation functions (sections 2.4 to 2.7) -/

/-- The `IB[0..63]` of the f4 and g2 vectors: U, V in toolbox order. -/
def uvBytes : List Byte :=
  hex 32 0xe69d350e480103ccdbfdf4ac1191f4efb9a5f9e9a7832c5e2cbe97f2d203b020 ++
    hex 32 0xfdc57ff449dd4f6bfb7c9df1c29acb592ae7d4eefbfc0a909abbf6323d8b1855

/-- The instance of the f4 vector. -/
def f4State : State := loaded 0xabae2b71ecb2ffff3e7377d15484cbd5 (uvBytes ++ hex 1 0x80)

/-- The instance of the g2 vector. -/
def g2State : State :=
  loaded 0xabae2b71ecb2ffff3e7377d15484cbd5 (uvBytes ++ hex 16 0xcfc43dfff78365216e5fa725cce7e8a6)

/-- The `IB[0..79]` of vector D5a. -/
def f5Bytes : List Byte :=
  hex 32 0x98a6bf73f3348d86f166f8b4136b79999b7d390aa610103405adc857a33402ec ++
    hex 16 0xabae2b71ecb2ffff3e7377d15484cbd5 ++ hex 16 0xcfc43dfff78365216e5fa725cce7e8a6 ++
    hex 8 0xcebf373712560000 ++ hex 8 0xc1cf2d7013a70000

/-- The `IB[0..79]` of vector D6, stale bytes included. -/
def f6Bytes : List Byte :=
  hex 16 0xabae2b71ecb2ffff3e7377d15484cbd5 ++ hex 16 0xcfc43dfff78365216e5fa725cce7e8a6 ++
    hex 16 0xc80f2d0cd242da0854bb53b43b34a312 ++ hex 8 0x020101fff7836521 ++ hex 8 0xcebf3737125600a6 ++
    hex 16 0xc1cf2d7013a70000c1cf2d7013a70000

/-- The instance of vector D6. -/
def f6State : State := loaded 0x206e63ce206a3ffd024a08a176f16529 f6Bytes

theorem test_f4 :
    out0Status 0x00000010#32 f4State
      = some (hex 16 0x28ff99fe5e5994d04ad863d0247ac67c, 0x00100011#32) := by decide +kernel

theorem test_f5 :
    results 0x00000011#32 (loaded 0 f5Bytes)
      = some (hex 16 0x206e63ce206a3ffd024a08a176f16529, hex 16 0x380a7594b522059823cdd76911798669, 0x00110031#32) := by
  decide +kernel

theorem test_f6 :
    out0Status 0x00000012#32 f6State
      = some (hex 16 0x618f95da090b6cd2c5e8d09c9873c4e3, 0x00120011#32) := by decide +kernel

theorem test_g2 :
    (afterCommand 0x00000013#32 g2State).map (fun t => (t.res32, statusWord t))
      = some (0x000e523a#32, 0x00130041#32) := by decide +kernel

theorem test_h6 :
    out0Status 0x00000014#32 (loaded 0x9b7d390aa610103405adc857a33402ec (hex 4 0x7262656c))
      = some (hex 16 0x9963b180e2a9d3e81cc96de702e19a2d, 0x00140011#32) := by decide +kernel

theorem test_h7 :
    out0Status 0x00000015#32
      (loaded 0x31706d74000000000000000000000000 (hex 16 0x9b7d390aa610103405adc857a33402ec))
      = some (hex 16 0x1170a5752a8c99d2ecc0a3c6973517fb, 0x00150011#32) := by decide +kernel

theorem test_ah :
    out0Status 0x00000016#32 (loaded 0x9b7d390aa610103405adc857a33402ec
      (hex 3 0x948170 ++ List.replicate 13 0xff#8))
      = some (hex 16 0xaafb0d00000000000000000000000000, 0x00160011#32) := by decide +kernel

/-! ### Key conversions (section 2.8) -/

theorem test_ltk2lk_h7 :
    out0Status 0x00000118#32 (loaded 0 (hex 16 0x64bf4f33336c06bd584b26e3bcf98d36))
      = some (hex 16 0x35b84730f4f1390a5302a4dc79d37a28, 0x00180011#32) := by decide +kernel

theorem test_ltk2lk_h6 :
    out0Status 0x00000018#32 (loaded 0 (hex 16 0x64bf4f33336c06bd584b26e3bcf98d36))
      = some (hex 16 0xb08f38eeaf30820dbdc13f63efa41cbc, 0x00180011#32) := by decide +kernel

theorem test_lk2ltk_h7 :
    out0Status 0x00000119#32 (loaded 0 (hex 16 0x00010203040506070809000102030405))
      = some (hex 16 0x79bc1132138a4169e2b3cc5eeb095ee8, 0x00190011#32) := by decide +kernel

theorem test_lk2ltk_document_literal :
    out0Status 0x00000019#32
      { loaded 0 (hex 16 0x00010203040506070809000102030405) with cfg := documentConfig }
      = some (hex 16 0xfdc0ef6dd1c4abf30f8cdc0cfdbf98f3, 0x00190011#32) := by decide +kernel

/-! ### CLR and refusals (section 2.9, R240, R253) -/

theorem test_clr :
    out0Status 0x00000007#32 { loaded 5 (hex 16 7) with esticky := true, err := true, ecode := 1#8 }
      = some (hex 16 0, 0x00000000#32) := by decide +kernel

theorem test_clr_refused :
    out0Status 0x00000307#32 { loaded 5 (hex 16 7) with esticky := true, rkv := true }
      = some (hex 16 0, 0x0007020e#32) := by decide +kernel

theorem test_cmac_message_bound :
    out0Status 0x01010004#32 (loaded 0 []) = some (hex 16 0, 0x00040406#32) ∧
      out0Status 0x00510004#32 { loaded 0 [] with cfg := { adoptedConfig with msgMax := 80 } }
        = some (hex 16 0, 0x00040406#32) := by decide +kernel

theorem test_unassigned_opcode_first :
    out0Status 0xffff0009#32 State.reset = some (hex 16 0, 0x00090106#32) ∧
      out0Status 0xffff0201#32 State.reset = some (hex 16 0, 0x00010206#32) := by decide +kernel

/-! ### Host accesses (section 2.10) -/

/-- One step that performs one host event on a state with nothing else pending. -/
def afterEvent (e : HostEvent) (s : State) : Option State :=
  match step { s with pending := [e] } with
  | .next t => some t
  | .fault _ => none
  | .refused _ => none

theorem test_write_word_little_endian :
    (afterEvent (.write 0x010 4 0x03020100#32) State.reset).map (fun t => t.key.toList.take 5)
      = some [0, 1, 2, 3, 0] := by decide +kernel

theorem test_read_word_little_endian :
    (afterEvent (.read 0x010 4) (loaded (0x00aa0203 <<< 96) [])).map (·.rdata)
      = some (some (.word 0x0302aa00#32)) := by decide +kernel

theorem test_read_cap :
    (afterEvent (.read 0x008 4) State.reset).map (·.rdata) = some (some (.word 0x00010100#32)) := by decide +kernel

theorem test_write_out0_ignored :
    (afterEvent (.write 0x020 4 0xdeadbeef#32) State.reset).map (·.out0.toList) = some (hex 16 0) := by
  decide +kernel

theorem test_illegal_accesses_refused :
    [HostEvent.read 0x004 1, .write 0x000 1 1#32, .read 0x012 4, .read 0x040 4, .write 0x0ff 1 0#32,
      .read 0x200 1, .read 0x010 2].all (fun e => (afterEvent e State.reset).isNone) = true := by decide +kernel

theorem test_read_last_buffer_byte :
    (afterEvent (.read 0x1ff 1) State.reset).map (·.rdata) = some (some (.byte 0#8)) := by decide +kernel

/-! ### Work counts (R301, R198) -/

theorem test_work_table :
    work (.cmac 40) = ⟨1, 1, 4⟩ ∧ work .f4 = ⟨1, 1, 6⟩ ∧ work .f5 = ⟨3, 3, 13⟩ ∧ work .f6 = ⟨1, 1, 6⟩ ∧
      work .g2 = ⟨1, 1, 6⟩ ∧ work .h6 = ⟨1, 1, 2⟩ ∧ work .h7 = ⟨1, 1, 2⟩ ∧
      work (.ltk2lk true) = ⟨2, 2, 4⟩ ∧ work (.lk2ltk false) = ⟨2, 2, 4⟩ := by decide

/-- "A refused command performs none": `SETKEY 15`, `CMAC` beyond `MSG_MAX`, `ENCRYPT` with no schedule, `RSV` set;
beside them the longest message the buffer holds. -/
theorem test_work_refused :
    [0x000F0001#32, 0x01010004#32, 0x00000002#32, 0x00000211#32, 0x00000000#32].map (commandWork · State.reset)
        = List.replicate 5 ⟨0, 0, 0⟩ ∧
      commandWork 0x01000004#32 State.reset = ⟨1, 1, 17⟩ := by
  decide +kernel

/-! ### Witnesses: decoding -/

theorem wit_DecodeOfEncode : Instr.wellFormed (.cmac 65535) = true ∧ Instr.wellFormed (.ltk2lk true) = true := by
  decide

theorem wit_EncodeOfDecode :
    decode 0xFFFF0004#32 = .ok (.cmac 65535) ∧ decode 0x00000119#32 = .ok (.lk2ltk true) := by decide

theorem wit_DecodeMatchesOpcodeTable :
    (⟨"CMAC", 0x0000FFFF#32, 0x00000004#32⟩ : OpcodeRow) ∈ opcodeRows ∧
      0x00280004#32 &&& 0x0000FFFF#32 = (0x00000004#32 : Word32) ∧ opcodeRows.length = 16 := by
  decide +kernel

theorem wit_unassignedOpcodes :
    (∀ op ∈ [0x00#8, 0x08#8, 0x0F#8, 0x17#8, 0x1A#8, 0xFF#8], UnassignedOpcode op) ∧
      ∀ op ∈ [0x01#8, 0x07#8, 0x10#8, 0x16#8, 0x18#8, 0x19#8], ¬ UnassignedOpcode op := by
  unfold UnassignedOpcode
  decide

/-- Bits 9 and 15, the selector and the two ends of `LEN`, each alone in a word that does not use it. -/
theorem wit_ReservedWordsRefused :
    UnassignedOpcode (opField 0xFFFF0000#32) ∧
      ∀ c ∈ [0x00000201#32, 0x00008018#32, 0x00000101#32, 0x00010002#32, 0x80000119#32],
        ¬ UnassignedOpcode (opField c) ∧ UnusedFieldSet c := by
  simp [UnassignedOpcode, UnusedFieldSet, opField, rsvField, h7Field, lenField]

/-- A word that sets a field it does not use, for each of the sixteen opcodes (`SpelledBy`). -/
theorem wit_SpelledBy :
    ∀ op ∈ [0x01#8, 0x02#8, 0x03#8, 0x04#8, 0x05#8, 0x06#8, 0x07#8, 0x10#8, 0x11#8, 0x12#8, 0x13#8, 0x14#8, 0x15#8,
      0x16#8, 0x18#8, 0x19#8], opField (0x00000200#32 ||| op.setWidth 32) = op ∧
        UnusedFieldSet (0x00000200#32 ||| op.setWidth 32) := by
  unfold UnusedFieldSet
  decide +kernel

/-! ### Witnesses: the command frame -/

/-- `s` with one event pending. -/
def withEvent (e : HostEvent) (s : State) : State := { s with pending := [e] }

/-- An event that `afterEvent` finds a state for has a next state. -/
theorem next_of_afterEvent {e : HostEvent} {s : State} (h : (afterEvent e s).isSome = true) :
    ∃ t, step (withEvent e s) = .next t := by
  unfold afterEvent at h
  unfold withEvent
  split at h
  · next t ht => exact ⟨t, ht⟩
  · cases h
  · cases h

theorem wit_StepRunsDecodedCommand :
    (withEvent (.write 0x000 4 0x00280004#32) State.reset).pending = .write 0x000 4 0x00280004#32 :: [] ∧
      decode 0x00280004#32 = .ok (.cmac 40) := by decide +kernel

/-- A word for each refusal code, with the neighbour that is not refused. -/
theorem wit_RefusalEffect :
    check 0x00000008#32 State.reset = 0x01#8 ∧ check 0x00000102#32 State.reset = 0x02#8 ∧
      check 0x00110001#32 State.reset = 0x03#8 ∧ check 0x01010004#32 State.reset = 0x04#8 ∧
      check 0x00000002#32 State.reset = 0x05#8 ∧ check 0x00100001#32 State.reset = 0x00#8 ∧
      check 0x01000004#32 State.reset = 0x00#8 := by decide +kernel

theorem wit_RefusalIsForgotten :
    (∃ t, hostEvent (.write 0x000 4 0x00000005#32) State.reset = .next t) ∧
      (∃ t, hostEvent (.write 0x000 4 0x00000007#32) State.reset = .next t) ∧
      check 0x00000005#32 State.reset = 0x00#8 :=
  ⟨hostEvent_write_total (by unfold IllegalAccess; decide +kernel),
    hostEvent_write_total (by unfold IllegalAccess; decide +kernel), by decide +kernel⟩

/-- An event of each kind that the clauses of `DoneOrErrAfterCommand`, `StickyFlag` and `WritersOfEachElement` tell
apart: reset twice, a refused and two executed commands, a write of `KEY`, of the last byte of `IB`, and a read. -/
theorem wit_eventKinds :
    ∀ e ∈ [HostEvent.hardReset, .write 0x000 4 0x00000007#32, .write 0x000 4 0x00000107#32,
      .write 0x000 4 0x00000005#32, .write 0x000 4 0x00100001#32, .write 0x01F 1 0xAA#32, .write 0x1FF 1 0xAA#32,
      .read 0x004 4], (withEvent e State.reset).pending = e :: [] ∧ ∃ t, step (withEvent e State.reset) = .next t := by
  intro e he
  refine ⟨rfl, next_of_afterEvent ?_⟩
  revert e
  decide +kernel

theorem wit_ResetEvent :
    ResetEvent .hardReset ∧ ResetEvent (.write 0x000 4 0x00000007#32) ∧
      ¬ ResetEvent (.write 0x000 4 0x00000107#32) ∧ ¬ ResetEvent (.read 0x004 4) := by
  unfold ResetEvent
  decide

theorem wit_BankChangesOnlyBySetkeyAndReset :
    ∃ t, step (withEvent (.write 0x000 4 0x00100001#32) (loaded 0x000102030405060708090a0b0c0d0e0f [])) = .next t :=
  next_of_afterEvent (by decide +kernel)

/-- A command of every shape: refused, with no result, with one, with two, with the integer result. -/
theorem wit_CommandLeavesOperands :
    ∀ i ∈ [Instr.setkey 15, .setkey 16, .cmac 257, .cmac 256, .subkey, .f5, .g2, .ah],
      i ≠ .clr ∧ ∃ t, exec i State.reset = .next t :=
  fun i hi => ⟨by revert i; decide, exec_total i State.reset⟩

theorem wit_ResultWriters :
    ∀ i ∈ [Instr.encrypt, .setkey 16, .subkey, .f5, .g2, .lk2ltk true], i ≠ .clr ∧ ∃ t, exec i State.reset = .next t :=
  fun i hi => ⟨by revert i; decide, exec_total i State.reset⟩

/-- Two states that differ in `KEY` and in the bytes `F5` ignores, `IB[71]` and `IB[79]`. -/
theorem wit_CommandReadsOnlyItsSlots :
    SameOperands .f5 State.reset { State.reset with key := specBytes 16 7, ib := [(71, 1#8), (79, 2#8)] } ∧
      (∃ t, exec .f5 State.reset = .next t) ∧
      ∃ t, exec .f5 { State.reset with key := specBytes 16 7, ib := [(71, 1#8), (79, 2#8)] } = .next t := by
  refine ⟨⟨rfl, by decide, fun j hj => ?_, by decide⟩, exec_total _ _, exec_total _ _⟩
  obtain ⟨h1, h2⟩ := hj
  simp [State.reset, Memory.read, show ¬ 71 = j by omega, show ¬ 79 = j by omega]

/-! ### Witnesses: the invariant -/

/-- A state after a refusal, with a byte in the last place of `IB`. -/
def refusedState : State := { refusedWith 0x09#8 0x01#8 State.reset with ib := [(255, 0xAA#8)] }

theorem wit_StepKeepsInv :
    Inv refusedState ∧ ∃ t, step (withEvent (.write 0x1FF 1 0x55#32) refusedState) = .next t := by
  refine ⟨?_, next_of_afterEvent (by decide +kernel)⟩
  constructor <;>
    simp [refusedState, refusedWith, State.reset, Memory.wf, unlistedByte, Config.Valid, adoptedConfig, eNone]

theorem wit_CanonicalBuffersEqual :
    (bufferOf [0#8, 5#8]).wf ∧ Memory.wf [(1, 5#8)] ∧ ∀ i, (bufferOf [0#8, 5#8]).read i = Memory.read [(1, 5#8)] i := by
  have h : bufferOf [0#8, 5#8] = [(1, 5#8)] := by decide
  rw [h]
  exact ⟨by decide, by decide, fun _ => rfl⟩

/-! ### Witnesses: the window -/

/-- The ends of the illegal ranges with `MSG_MAX = 256`: offset, size. -/
theorem wit_IllegalAccessesRefused :
    ∀ a ∈ [(0x010, 2), (0x010, 0), (0x013, 4), (0x000, 1), (0x00F, 1), (0x040, 4), (0x0FF, 1), (0x200, 1)],
      IllegalAccess State.reset.cfg.msgMax a.1 a.2 := by
  unfold IllegalAccess
  decide +kernel

/-- The ends of the legal ranges with `MSG_MAX = 256`: offset, size. -/
theorem wit_LegalEventsComplete :
    (∀ a ∈ [(0x000, 4), (0x00C, 4), (0x010, 1), (0x03F, 1), (0x03C, 4), (0x100, 1), (0x1FF, 1), (0x1FC, 4)],
      ¬ IllegalAccess State.reset.cfg.msgMax a.1 a.2) ∧
      (withEvent (.read 0x1FF 1) State.reset).pending = .read 0x1FF 1 :: [] := by
  unfold IllegalAccess
  decide +kernel

/-- Both ends of each region. -/
theorem wit_ReadByteReturns :
    (∀ i ∈ [0, 15], ∃ h : i < 16, State.reset.key[i] = 0#8 ∧ State.reset.out0[i] = 0#8 ∧ State.reset.out1[i] = 0#8) ∧
      ∀ i ∈ [0, 255], i < State.reset.cfg.msgMax ∧ State.reset.ib.read i = 0#8 := by
  decide +kernel

theorem wit_ReadWordReturns :
    State.reset.cfg.Valid ∧
      statusWord State.reset = 0#32 ∧ capWord State.reset.cfg = 0x00010100#32 ∧ State.reset.res32 = 0#32 ∧
      ∀ off ∈ [0x010, 0x03C, 0x100, 0x1FC], off % 4 = 0 ∧ BytesOffset 256 off ∧
        ∀ k : Fin 4, (0#32).extractLsb' (8 * k.val) 8 = windowByte State.reset (off + k.val) := by
  unfold BytesOffset
  decide +kernel

theorem wit_CapFields :
    adoptedConfig.Valid ∧ Config.Valid { adoptedConfig with msgMax := 80 } ∧
      Config.Valid { adoptedConfig with msgMax := 65520, base := 4 } := by decide +kernel

theorem wit_WordReadIsFourByteReads :
    State.reset.cfg.Valid ∧ ∀ off ∈ [0x010, 0x03C, 0x100, 0x1FC], off % 4 = 0 ∧ BytesOffset 256 off := by
  unfold BytesOffset
  decide +kernel

theorem wit_ReadsAreIdempotent : ¬ IllegalAccess State.reset.cfg.msgMax 0x1FC 4 := by
  unfold IllegalAccess
  decide +kernel

theorem wit_ByteWriteEffect : (bufferOf [1#8, 0#8, 2#8]).wf ∧ 255 < State.reset.cfg.msgMax := by decide +kernel

theorem wit_WordWriteEffect :
    State.reset.cfg.Valid ∧ State.reset.ib.wf ∧ 12 % 4 = 0 ∧ 12 < 16 ∧ 252 % 4 = 0 ∧ 252 < State.reset.cfg.msgMax ∧
      ∀ i ∈ [0x004, 0x008, 0x00C, 0x020, 0x03C],
        i % 4 = 0 ∧ (i = 0x004 ∨ i = 0x008 ∨ i = 0x00C ∨ (0x020 ≤ i ∧ i ≤ 0x03F)) := by decide +kernel

theorem wit_ClrIsReset :
    (∃ t, exec .clr refusedState = .next t) ∧
      (Instr.subkey ≠ .clr ∧ (∃ t, exec .subkey refusedState = .next t) ∧ refusedState.esticky = true) ∧
      ∀ c ∈ [0x00000307#32, 0x00000107#32, 0x00010007#32, 0x00008007#32],
        opField c = 0x07#8 ∧ c ≠ 0x00000007#32 :=
  ⟨exec_total _ _, ⟨by decide, exec_total _ _, rfl⟩, by simp [opField]⟩

/-! ### Witnesses: operands of the commands (the vectors' own) -/

theorem wit_SetkeyResult : ∀ len ∈ [0, 15, 17, 24, 32, 65535], len ≠ 16 := by decide

theorem wit_EncryptResult :
    (∀ i : Fin 16, (loaded 0 (hex 16 0x00112233445566778899aabbccddeeff)).ib.read i.val
      = (specBytes 16 0x00112233445566778899aabbccddeeff)[i]) ∧
      ({ State.reset with rkv := true } : State).rkv = true ∧ State.reset.rkv = false := by decide +kernel

theorem wit_Aes128Result :
    KeyField (loaded 0x0f0e0d0c0b0a09080706050403020100 (hex 16 0xffeeddccbbaa99887766554433221100))
      (specBytes 16 0x000102030405060708090a0b0c0d0e0f) ∧
      SlotField 0 (loaded 0x0f0e0d0c0b0a09080706050403020100 (hex 16 0xffeeddccbbaa99887766554433221100))
        (specBytes 16 0x00112233445566778899aabbccddeeff) := by
  unfold KeyField SlotField
  decide +kernel

theorem wit_DblResult :
    SlotField 0 (loaded 0 (hex 16 0x6f541bb947f0423eb399b81a0c6bf77d))
      (specBytes 16 0x7df76b0c1ab899b33e42f047b91b546f) := by
  unfold SlotField
  decide +kernel

theorem wit_SubkeyResult :
    KeyField (loaded 0x3c4fcf098815f7aba6d2ae2816157e2b []) (specBytes 16 0x2b7e151628aed2a6abf7158809cf4f3c) := by
  unfold KeyField
  decide +kernel

/-- An instance with the key of R159's example and the message of R155's in `IB`. -/
def cmacState : State := loaded 0x3c4fcf098815f7aba6d2ae2816157e2b
  (hex 40 0x11e45ca3461cc830518eaf45ac6fb79e9cac031e578a2dae2a179373117e3de9969f402ee2bec16b)

/-- A message of every boundary length in one state: empty, the example's 40 bytes, the whole buffer; and a length one
too large. -/
theorem wit_CmacResult :
    KeyField cmacState (specBytes 16 0x2b7e151628aed2a6abf7158809cf4f3c) ∧ BufferMessage cmacState [] ∧
      BufferMessage cmacState
        (hex 40 0x6bc1bee22e409f96e93d7e117393172aae2d8a571e03ac9c9eb76fac45af8e5130c81c46a35ce411) ∧
      BufferMessage cmacState (messageSpec 256 cmacState) ∧
      (messageSpec 256 cmacState).length = cmacState.cfg.msgMax ∧ cmacState.cfg.msgMax < 257 := by
  refine ⟨?_, fun i h => absurd h (by simp), ?_, fun i h => ?_, by simp [cmacState, loaded, State.reset, adoptedConfig],
    by decide⟩
  · unfold KeyField
    decide +kernel
  · unfold BufferMessage
    decide +kernel
  · simp [messageSpec]

theorem wit_F4Result :
    SlotField 0 f4State
      (specBytes 32 0x20b003d2f297be2c5e2c83a7e9f9a5b9eff49111acf4fddbcc0301480e359de6) ∧
      SlotField 32 f4State
        (specBytes 32 0x55188b3d32f6bb9a900afcfbeed4e72a59cb9ac2f19d7cfb6b4fdd49f47fc5fd) ∧
      KeyField f4State
        (specBytes 16 0xd5cb8454d177733effffb2ec712baeab) ∧
      SlotField 64 f4State (specBytes 1 0x80) := by
  unfold KeyField SlotField
  decide +kernel

theorem wit_F5Result :
    SlotField 0 (loaded 0 f5Bytes)
      (specBytes 32 0xec0234a357c8ad05341010a60a397d9b99796b13b4f866f1868d34f373bfa698) ∧
      SlotField 32 (loaded 0 f5Bytes) (specBytes 16 0xd5cb8454d177733effffb2ec712baeab) ∧
      SlotField 48 (loaded 0 f5Bytes) (specBytes 16 0xa6e8e7cc25a75f6e216583f7ff3dc4cf) ∧
      SlotField 64 (loaded 0 f5Bytes) (specBytes 7 0x0056123737bfce) ∧
      SlotField 72 (loaded 0 f5Bytes) (specBytes 7 0x00a713702dcfc1) := by
  unfold SlotField
  decide +kernel

theorem wit_F6Result :
    KeyField f6State (specBytes 16 0x2965f176a1084a02fd3f6a20ce636e20) ∧
      SlotField 0 f6State (specBytes 16 0xd5cb8454d177733effffb2ec712baeab) ∧
      SlotField 16 f6State (specBytes 16 0xa6e8e7cc25a75f6e216583f7ff3dc4cf) ∧
      SlotField 32 f6State (specBytes 16 0x12a3343bb453bb5408da42d20c2d0fc8) ∧
      SlotField 48 f6State (specBytes 3 0x010102) ∧
      SlotField 56 f6State (specBytes 7 0x0056123737bfce) ∧
      SlotField 64 f6State (specBytes 7 0x00a713702dcfc1) := by
  unfold KeyField SlotField
  decide +kernel

theorem wit_G2Result :
    KeyField g2State
      (specBytes 16 0xd5cb8454d177733effffb2ec712baeab) ∧
      SlotField 0 g2State
        (specBytes 32 0x20b003d2f297be2c5e2c83a7e9f9a5b9eff49111acf4fddbcc0301480e359de6) ∧
      SlotField 32 g2State
        (specBytes 32 0x55188b3d32f6bb9a900afcfbeed4e72a59cb9ac2f19d7cfb6b4fdd49f47fc5fd) ∧
      SlotField 64 g2State
        (specBytes 16 0xa6e8e7cc25a75f6e216583f7ff3dc4cf) ∧ g2State.cfg.Valid := by
  unfold KeyField SlotField
  decide +kernel

theorem wit_H6Result :
    KeyField (loaded 0x9b7d390aa610103405adc857a33402ec (hex 4 0x7262656c))
      (specBytes 16 0xec0234a357c8ad05341010a60a397d9b) ∧
      SlotField 0 (loaded 0x9b7d390aa610103405adc857a33402ec (hex 4 0x7262656c)) (specBytes 4 0x6c656272) := by
  unfold KeyField SlotField
  decide +kernel

theorem wit_H7Result :
    KeyField (loaded 0x31706d74000000000000000000000000 (hex 16 0x9b7d390aa610103405adc857a33402ec))
      (specBytes 16 0x746d7031) ∧
      SlotField 0 (loaded 0x31706d74000000000000000000000000 (hex 16 0x9b7d390aa610103405adc857a33402ec))
        (specBytes 16 0xec0234a357c8ad05341010a60a397d9b) := by
  unfold KeyField SlotField
  decide +kernel

theorem wit_AhResult :
    KeyField (loaded 0x9b7d390aa610103405adc857a33402ec (hex 3 0x948170))
      (specBytes 16 0xec0234a357c8ad05341010a60a397d9b) ∧
      SlotField 0 (loaded 0x9b7d390aa610103405adc857a33402ec (hex 3 0x948170)) (specBytes 3 0x708194) ∧
      (∀ i : Fin 13, (specBytes 16 0x708194)[i.val] = 0x00#8) ∧
      ∀ i : Fin 3, (specBytes 16 0x708194)[13 + i.val] = (specBytes 3 0x708194)[i] := by
  unfold KeyField SlotField
  decide +kernel

theorem wit_AhAgreesWithAes128 :
    (∀ j, j < 3 → (loaded 5 (hex 3 0x948170)).ib.read j = (loaded 5 (hex 4 0x948170ff)).ib.read j) ∧
      (∀ j, j < 16 → 3 ≤ j → (loaded 5 (hex 3 0x948170)).ib.read j = 0x00#8) ∧
      (loaded 5 (hex 3 0x948170)).key = (loaded 5 (hex 4 0x948170ff)).key ∧
      (∃ a, exec .ah (loaded 5 (hex 4 0x948170ff)) = .next a) ∧
      ∃ b, exec .aes128 (loaded 5 (hex 3 0x948170)) = .next b :=
  ⟨by decide +kernel, by decide +kernel, rfl, exec_total _ _, exec_total _ _⟩

theorem wit_Ltk2lkResult :
    SlotField 0 (loaded 0 (hex 16 0x64bf4f33336c06bd584b26e3bcf98d36))
      (specBytes 16 0x368df9bce3264b58bd066c33334fbf64) := by
  unfold SlotField
  decide +kernel

theorem wit_Lk2ltkResult :
    SlotField 0 (loaded 0 (hex 16 0x00010203040506070809000102030405))
      (specBytes 16 0x05040302010009080706050403020100) := by
  unfold SlotField
  decide +kernel

/-! ### Witnesses: functions and instances -/

theorem wit_SboxIsInverseThenAffine : (0x01#8 : Byte) ≠ 0x00#8 ∧ (0xff#8 : Byte) ≠ 0x00#8 := by decide

theorem wit_MixColumnsMatrix :
    (0xd4#8, 0xbf#8, 0x5d#8, 0x30#8)
      = ((specBytes 16 0xd4bf5d30)[4 * 3], (specBytes 16 0xd4bf5d30)[4 * 3 + 1], (specBytes 16 0xd4bf5d30)[4 * 3 + 2],
        (specBytes 16 0xd4bf5d30)[4 * 3 + 3]) := by decide +kernel

/-- The chain of the 40-byte vector (three blocks), and of the empty message (one block). -/
theorem wit_CmacIsCbcChain (key : Octet16) :
    let m := hex 40 0x6bc1bee22e409f96e93d7e117393172aae2d8a571e03ac9c9eb76fac45af8e5130c81c46a35ce411
    (1 ≤ 3 ∧ m.length ≤ 16 * 3 ∧ (1 < 3 → 16 * (3 - 1) < m.length) ∧
      (∀ i (j : Fin 16), 1 ≤ i → i < 3 → (messageBlock m (i - 1))[j] = m.getD (16 * (i - 1) + j.val) 0#8) ∧
      cbcChain key m 0 = zero128 ∧
      ∀ i, 1 ≤ i → i < 3 →
        cbcChain key m i = aesEnc key (xorBytes (cbcChain key m (i - 1)) (messageBlock m (i - 1)))) ∧
      (1 ≤ 1 ∧ ([] : List Byte).length ≤ 16 * 1 ∧ (1 < 1 → 16 * (1 - 1) < ([] : List Byte).length)) := by
  intro m
  refine ⟨⟨by decide, by decide +kernel, fun _ => by decide +kernel, ?_, rfl, ?_⟩, by decide⟩
  · have h : ∀ i : Fin 3, ∀ j : Fin 16, 1 ≤ i.val →
        (messageBlock m (i.val - 1))[j] = m.getD (16 * (i.val - 1) + j.val) 0#8 := by decide +kernel
    exact fun i j h1 h3 => h ⟨i, h3⟩ j h1
  · intro i h1 _
    cases i with
    | zero => omega
    | succ i => rfl

/-- `ERR` after an event. -/
def errAfter (e : HostEvent) (s : State) : Option Bool :=
  match hostEvent e s with
  | .next t => some t.err
  | .fault _ => none
  | .refused _ => none

/-- An event with an `ERR` after it has a next state with that `ERR`. -/
theorem next_of_errAfter {e : HostEvent} {s : State} {b : Bool} (h : errAfter e s = some b) :
    ∃ t, hostEvent e s = .next t ∧ t.err = b := by
  unfold errAfter at h
  split at h
  · next t ht => exact ⟨t, ht, Option.some.inj h⟩
  · cases h
  · cases h

/-- A refused word, an executed one, and `CMAC` of the longest message: its `ERR`, and its opcode. -/
theorem wit_WorkOfCommandWord :
    (∃ t, hostEvent (.write 0x000 4 0x000F0001#32) State.reset = .next t ∧ t.err = true) ∧
      (∃ t, hostEvent (.write 0x000 4 0x01000004#32) State.reset = .next t ∧ t.err = false) ∧
      opField 0x01000004#32 = 0x04#8 ∧ State.reset.cfg.Valid :=
  ⟨next_of_errAfter (by decide +kernel), next_of_errAfter (by decide +kernel), by decide, by decide +kernel⟩

/-- Two instances: a step of the first, and of an absent third. -/
theorem wit_InstancesShareNothing :
    (∃ q, Platform.stepAt ⟨[withEvent .hardReset State.reset, State.reset]⟩ 0 = .next q) ∧
      ∃ q, Platform.stepAt ⟨[State.reset, State.reset]⟩ 2 = .next q := ⟨⟨_, rfl⟩, ⟨_, rfl⟩⟩

end Sys2Proof.Tests
end

section
/-! SUPPORT. Noninterference (`00_scope.md` rule R8): two states that agree on what a command reads give it the same
results and the same record. -/

namespace Sys2Proof.Machine

/-- States that agree on `KEY` give the same key-role operand. -/
theorem keySpec_congr {s t : State} (h : s.key = t.key) : keySpec s = keySpec t :=
  congrArg rev h

/-- Buffers that agree below `k` give the same operand from every slot that ends there. -/
theorem slotSpec_congr_below {k n lo : Nat} {s t : State} (h : ∀ j, j < k → s.ib.read j = t.ib.read j)
    (hk : lo + n ≤ k) : slotSpec n lo s = slotSpec n lo t :=
  slotSpec_congr fun j _ hj => h j (by omega)

/-- Buffers that agree below `k` give the same bytes from every slot that ends there. -/
theorem slotAes_congr_below {k n lo : Nat} {s t : State} (h : ∀ j, j < k → s.ib.read j = t.ib.read j)
    (hk : lo + n ≤ k) : slotAes n lo s = slotAes n lo t :=
  slotAes_congr fun j _ hj => h j (by omega)

/-- `F5` reads its constants and `IB[0..70]`, `IB[72..78]`: `IB[71]`, between the two addresses, plays no part. -/
theorem f5OfSlots_congr {s t : State} (hcfg : s.cfg = t.cfg)
    (hib : ∀ j, j < 79 ∧ j ≠ 71 → s.ib.read j = t.ib.read j) : f5OfSlots s = f5OfSlots t := by
  have hlow : ∀ j, j < 71 → s.ib.read j = t.ib.read j := fun j hj => hib j (by omega)
  have hA2 : slotSpec 7 72 s = slotSpec 7 72 t := slotSpec_congr fun j _ _ => hib j (by omega)
  simp (disch := decide) only [f5OfSlots, hcfg, hA2, slotSpec_congr_below hlow]

/-- The results and the record of an executed command do not depend on the state it left them in. -/
theorem sameResults_executed (op : Byte) (out0 out1 : Octet16) (res32 : Word32) (v0 v1 vr : Bool) (s t : State) :
    SameResults (executed op out0 out1 res32 v0 v1 vr s) (executed op out0 out1 res32 v0 v1 vr t) :=
  ⟨rfl, rfl, rfl, rfl, rfl, rfl, rfl, rfl, rfl, rfl⟩

/-- The results and the record of a refusal do not depend on the state it was raised in. -/
theorem sameResults_refusedWith (op code : Byte) (s t : State) :
    SameResults (refusedWith op code s) (refusedWith op code t) :=
  ⟨rfl, rfl, rfl, rfl, rfl, rfl, rfl, rfl, rfl, rfl⟩

/-- `Reset()` leaves the same results and record from every state. -/
theorem sameResults_resetEngine (s t : State) : SameResults (resetEngine s) (resetEngine t) :=
  ⟨rfl, rfl, rfl, rfl, rfl, rfl, rfl, rfl, rfl, rfl⟩

/-- From two states that agree on what the command reads, `exec` answers with the same results and record. -/
theorem exec_sameResults {i : Instr} {s t : State} (h : SameOperands i s t) :
    ∃ s' t', exec i s = .next s' ∧ exec i t = .next t' ∧ SameResults s' t' := by
  obtain ⟨hcfg, hkey, hib, hbank⟩ := h
  cases i with
  | setkey len =>
    refine ⟨_, _, exec_setkey s len, exec_setkey t len, ?_⟩
    split
    · exact sameResults_executed ..
    · exact sameResults_refusedWith ..
  | encrypt =>
    obtain ⟨hrk, hrkv⟩ := hbank rfl
    refine ⟨_, _, exec_encrypt s, exec_encrypt t, ?_⟩
    rw [hrk, hrkv, slotAes_congr_below (k := 16) hib (by decide)]
    split
    · exact sameResults_executed ..
    · exact sameResults_refusedWith ..
  | aes128 =>
    refine ⟨_, _, exec_aes128 s, exec_aes128 t, ?_⟩
    rw [keySpec_congr (hkey rfl), slotSpec_congr_below (k := 16) hib (by decide)]
    exact sameResults_executed ..
  | cmac len =>
    refine ⟨_, _, exec_cmac s len, exec_cmac t len, ?_⟩
    rw [hcfg, keySpec_congr (hkey rfl), messageSpec_congr hib]
    split
    · exact sameResults_refusedWith ..
    · exact sameResults_executed ..
  | dbl =>
    refine ⟨_, _, exec_dbl s, exec_dbl t, ?_⟩
    rw [slotSpec_congr_below (k := 16) hib (by decide)]
    exact sameResults_executed ..
  | subkey =>
    refine ⟨_, _, exec_subkey s, exec_subkey t, ?_⟩
    rw [keySpec_congr (hkey rfl)]
    exact sameResults_executed ..
  | clr => exact ⟨_, _, exec_clr s, exec_clr t, sameResults_resetEngine s t⟩
  | f4 =>
    refine ⟨_, _, exec_f4 s, exec_f4 t, ?_⟩
    simp (disch := decide) only [keySpec_congr (hkey rfl), slotSpec_congr_below (k := 65) hib,
      slotAes_congr_below (k := 65) hib]
    exact sameResults_executed ..
  | f5 =>
    refine ⟨_, _, exec_f5 s, exec_f5 t, ?_⟩
    rw [f5OfSlots_congr hcfg hib]
    exact sameResults_executed ..
  | f6 =>
    have hlow : ∀ j, j < 51 → s.ib.read j = t.ib.read j := fun j hj => hib j (.inl hj)
    have hA1 : slotSpec 7 56 s = slotSpec 7 56 t := slotSpec_congr fun j h1 h2 => hib j (.inr (.inl ⟨h1, h2⟩))
    have hA2 : slotSpec 7 64 s = slotSpec 7 64 t := slotSpec_congr fun j h1 h2 => hib j (.inr (.inr ⟨h1, h2⟩))
    refine ⟨_, _, exec_f6 s, exec_f6 t, ?_⟩
    simp (disch := decide) only [keySpec_congr (hkey rfl), hA1, hA2, slotSpec_congr_below hlow]
    exact sameResults_executed ..
  | g2 =>
    refine ⟨_, _, exec_g2 s, exec_g2 t, ?_⟩
    simp (disch := decide) only [hcfg, keySpec_congr (hkey rfl), slotSpec_congr_below (k := 80) hib]
    exact sameResults_executed ..
  | h6 =>
    refine ⟨_, _, exec_h6 s, exec_h6 t, ?_⟩
    rw [keySpec_congr (hkey rfl), slotSpec_congr_below (k := 4) hib (by decide)]
    exact sameResults_executed ..
  | h7 =>
    refine ⟨_, _, exec_h7 s, exec_h7 t, ?_⟩
    rw [keySpec_congr (hkey rfl), slotSpec_congr_below (k := 16) hib (by decide)]
    exact sameResults_executed ..
  | ah =>
    refine ⟨_, _, exec_ah s, exec_ah t, ?_⟩
    rw [keySpec_congr (hkey rfl), slotSpec_congr_below (k := 3) hib (by decide)]
    exact sameResults_executed ..
  | ltk2lk useH7 =>
    refine ⟨_, _, exec_ltk2lk s useH7, exec_ltk2lk t useH7, ?_⟩
    rw [hcfg, slotSpec_congr_below (k := 16) hib (by decide)]
    exact sameResults_executed ..
  | lk2ltk useH7 =>
    refine ⟨_, _, exec_lk2ltk s useH7, exec_lk2ltk t useH7, ?_⟩
    rw [hcfg, slotSpec_congr_below (k := 16) hib (by decide)]
    exact sameResults_executed ..

/-- The bank after `SETKEY 16` is the schedule of `KEY`, loaded (R122). -/
theorem bank_of_exec_setkey {s s' : State} (h : exec (.setkey 16) s = .next s') :
    s'.rk = keyExpansion s.key ∧ s'.rkv = true := by
  rw [exec_setkey, if_pos rfl] at h
  cases h
  exact ⟨rfl, rfl⟩

end Sys2Proof.Machine
end

section
/-! PROOF. The obligation of `00_scope.md`. -/

namespace Sys2Proof.Machine

/-- Settles O17: the command answers alike from both states, and the bank of `SETKEY 16` is a function of `KEY`. -/
theorem commandReadsOnlyItsSlots : Obligations.CommandReadsOnlyItsSlots := by
  intro i s t s' t' h hs ht
  constructor
  · obtain ⟨u, v, hu, hv, huv⟩ := exec_sameResults h
    cases hu.symm.trans hs
    cases hv.symm.trans ht
    exact huv
  · rintro rfl
    obtain ⟨-, hkey, -, -⟩ := h
    obtain ⟨hrk, hrkv⟩ := bank_of_exec_setkey hs
    obtain ⟨hrk', hrkv'⟩ := bank_of_exec_setkey ht
    exact ⟨by rw [hrk, hrk', hkey rfl], hrkv.trans hrkv'.symm⟩

end Sys2Proof.Machine
end

section
/-! SUPPORT. The command word and its decoder: the word of a decoded command, which commands `Check` turns away
(`30_encoding.md` R82, R83, R252), and which results a command leaves (`10_state.md` R34, `30_encoding.md` R87). -/

namespace Sys2Proof

/-- The commands that leave a result in `OUT0` (R34, R87). -/
def Instr.leavesOut0 : Instr → Bool
  | .setkey _ => false
  | .clr => false
  | .g2 => false
  | _ => true

/-- The commands that leave a result in `OUT1` (R34, R87). -/
def Instr.leavesOut1 : Instr → Bool
  | .subkey => true
  | .f5 => true
  | _ => false

/-- The commands that leave a result in `RES32` (R34, R87). -/
def Instr.leavesRes32 : Instr → Bool
  | .g2 => true
  | _ => false

theorem Instr.leavesOut0_iff (i : Instr) :
    i.leavesOut0 = true ↔ (∀ len, i ≠ .setkey len) ∧ i ≠ .clr ∧ i ≠ .g2 := by
  cases i <;> simp [Instr.leavesOut0]

theorem Instr.leavesOut1_iff (i : Instr) : i.leavesOut1 = true ↔ i = .subkey ∨ i = .f5 := by
  cases i <;> simp [Instr.leavesOut1]

theorem Instr.leavesRes32_iff (i : Instr) : i.leavesRes32 = true ↔ i = .g2 := by
  cases i <;> simp [Instr.leavesRes32]

theorem Instr.leavesOut0_iff_opcode (i : Instr) :
    i.leavesOut0 = true ↔ i.opcode ≠ 0x01#8 ∧ i.opcode ≠ 0x07#8 ∧ i.opcode ≠ 0x13#8 := by
  cases i <;> simp [Instr.leavesOut0, Instr.opcode]

theorem Instr.leavesOut1_iff_opcode (i : Instr) :
    i.leavesOut1 = true ↔ i.opcode = 0x06#8 ∨ i.opcode = 0x11#8 := by
  cases i <;> simp [Instr.leavesOut1, Instr.opcode]

theorem Instr.leavesRes32_iff_opcode (i : Instr) : i.leavesRes32 = true ↔ i.opcode = 0x13#8 := by
  cases i <;> simp [Instr.leavesRes32, Instr.opcode]

/-- No command but `CLR` has the opcode of `CLR` (R83). -/
theorem Instr.opcode_ne_clr {i : Instr} (h : i ≠ .clr) : i.opcode ≠ 0x07#8 := by
  cases i <;> simp [Instr.opcode] at h ⊢

/-- The selector of a word whose command does not use it is zero (R85). -/
theorem h7Field_of_unused {c : Word32} {i : Instr} (h : decode c = .ok i) (hi : i.usesH7 = false) :
    h7Field c = false := by
  obtain ⟨-, -, h7, -⟩ := decode_ok h
  exact Bool.eq_false_iff.2 fun hc => by simp [h7 hc] at hi

/-- The length of a word whose command does not use it is zero (R85). -/
theorem lenField_of_unused {c : Word32} {i : Instr} (h : decode c = .ok i) (hi : i.usesLen = false) :
    lenField c = 0 := by
  obtain ⟨-, -, -, hlen⟩ := decode_ok h
  by_contra hc
  simp [hlen hc] at hi

/-- A word that decodes is the word of its command (R82, R85). -/
theorem encode_of_decode {c : Word32} {i : Instr} (h : decode c = .ok i) : encode i = c := by
  obtain ⟨hi, hrsv, -, -⟩ := decode_ok h
  obtain ⟨hop, hh7, hlen⟩ := instr_some hi
  rw [← pack_fields c hrsv, hop]
  cases i with
  | setkey len =>
    obtain rfl : len = lenField c := by simpa using hlen rfl
    rw [h7Field_of_unused h rfl]; rfl
  | cmac len =>
    obtain rfl : len = lenField c := by simpa using hlen rfl
    rw [h7Field_of_unused h rfl]; rfl
  | ltk2lk b =>
    obtain rfl : b = h7Field c := by simpa using hh7 rfl
    rw [lenField_of_unused h rfl]; rfl
  | lk2ltk b =>
    obtain rfl : b = h7Field c := by simpa using hh7 rfl
    rw [lenField_of_unused h rfl]; rfl
  | _ => rw [h7Field_of_unused h rfl, lenField_of_unused h rfl]; rfl

/-- `CLR` is spelled by one word (R88). -/
theorem decode_eq_clr_iff (c : Word32) : decode c = .ok .clr ↔ c = 0x00000007#32 :=
  ⟨fun h => (encode_of_decode h).symm.trans (by decide), fun h => h ▸ by decide⟩

namespace Machine

/-- Every command's opcode is one of the sixteen (R252 step 1). -/
theorem isOpcode_opcode (i : Instr) : isOpcode i.opcode = true := by
  cases i <;> rfl

/-- A command that is turned away has its code from `Check` (R252 steps 5 to 7). -/
theorem check_of_turnedAway {c : Word32} {i : Instr} {s : State} {code : Byte} (hd : decode c = .ok i)
    (h : TurnedAway i s code) : check c s = code := by
  rw [(check_decode c s).2 i hd]
  cases h with
  | keyLength len _ h => simp [h]
  | messageLength len _ h => simp [h]
  | noSchedule _ h => simp [h]

/-- A command that `Check` does not pass is turned away. -/
theorem turnedAway_of_check {c : Word32} {i : Instr} {s : State} (hd : decode c = .ok i)
    (h : check c s ≠ eNone) : ∃ code, TurnedAway i s code := by
  rw [(check_decode c s).2 i hd] at h
  cases i with
  | setkey len => exact ⟨_, .keyLength len s fun hl => h (by simp [hl])⟩
  | cmac len => exact ⟨_, .messageLength len s (by by_contra hl; exact h (by simp [hl]))⟩
  | encrypt => exact ⟨_, .noSchedule s (Bool.eq_false_iff.2 fun hl => h (by simp [hl]))⟩
  | _ => exact absurd rfl h

/-- No code of a command's own test is `E_NONE`. -/
theorem TurnedAway.code_ne {i : Instr} {s : State} {code : Byte} (h : TurnedAway i s code) : code ≠ eNone := by
  cases h <;> decide

/-- The commands with two results or an integer result have no test of their own (R252 steps 5 to 7). -/
theorem TurnedAway.ne_pair_and_g2 {i : Instr} {s : State} {code : Byte} (h : TurnedAway i s code) :
    i ≠ .subkey ∧ i ≠ .f5 ∧ i ≠ .g2 := by
  cases h <;> exact ⟨nofun, nofun, nofun⟩

/-- `Check` gives one of the codes 0x00 to 0x05 (R251). -/
theorem check_le (c : Word32) (s : State) : (check c s).toNat ≤ 5 := by
  unfold check
  split_ifs <;> decide

/-- `Check` reads nothing of the host's side of the port (R252). -/
@[simp] theorem check_takeEvent (c : Word32) (rest : List HostEvent) (s : State) :
    check c (takeEvent rest s) = check c s := rfl

end Machine

end Sys2Proof
end

section
/-! SUPPORT. What a command other than `CLR` does when it is executed and when it is turned away, and what the
delivery of a command word does (`30_encoding.md` R84, `60_exceptions.md` R254). -/

namespace Sys2Proof.Machine

/-- `ExecutedBy i s t`: `t` is what the executed command `i`, not `CLR`, leaves of `s`. It leaves the results that are
its own and zeros elsewhere (R87), only `SETKEY` touches the bank (R36), and the rest is the frame of R84. -/
inductive ExecutedBy (i : Instr) (s : State) : State → Prop where
  /-- The results and the bank the command leaves. -/
  | intro (out0 out1 : Octet16) (res32 : Word32) (rk : Vector Word32 44) (rkv : Bool)
      (out0Zero : i.leavesOut0 = false → out0 = zero128)
      (out1Zero : i.leavesOut1 = false → out1 = zero128)
      (res32Zero : i.leavesRes32 = false → res32 = 0#32)
      (res32Below : s.cfg.Valid → res32.toNat < 1000000)
      (bank : (i = .setkey 16 ∧ rk = keyExpansion s.key ∧ rkv = true) ∨
        ((∀ len, i ≠ .setkey len) ∧ rk = s.rk ∧ rkv = s.rkv)) :
      ExecutedBy i s (executed i.opcode out0 out1 res32 i.leavesOut0 i.leavesOut1 i.leavesRes32
        { s with rk := rk, rkv := rkv })

/-- A command its own test turns away is refused with the test's code (R252, R254). -/
theorem exec_of_turnedAway {i : Instr} {s : State} {code : Byte} (h : TurnedAway i s code) :
    exec i s = .next (refusedWith i.opcode code s) := by
  cases h with
  | keyLength len _ h => rw [exec_setkey, if_neg h]; rfl
  | messageLength len _ h => rw [exec_cmac, if_pos h]; rfl
  | noSchedule _ h => rw [exec_encrypt, h]; rfl

/-- A command other than `CLR` that is not turned away is executed. -/
theorem executedBy_of_exec {i : Instr} {s t : State} (hi : i ≠ .clr) (hn : ∀ code, ¬ TurnedAway i s code)
    (h : exec i s = .next t) : ExecutedBy i s t := by
  rcases exec_cases i s with ⟨hclr, -⟩ | ⟨code, hcode, -⟩ | ⟨rfl, he⟩ | ⟨rfl, n, hlt, he⟩ | ⟨hpair, o0, o1, he⟩ |
      ⟨hset, hg2, hsub, hf5, -, o0, he⟩
  · exact absurd hclr hi
  · exact absurd hcode (hn code)
  · cases he.symm.trans h
    exact .intro (i := .setkey 16) zero128 zero128 0#32 (keyExpansion s.key) true (fun _ => rfl) (fun _ => rfl)
      (fun _ => rfl) (fun _ => by decide) (.inl ⟨rfl, rfl, rfl⟩)
  · cases he.symm.trans h
    refine .intro (i := .g2) zero128 zero128 (BitVec.ofNat 32 n) s.rk s.rkv (fun _ => rfl) (fun _ => rfl)
      (fun hg => nomatch hg) (fun hv => ?_) (.inr ⟨nofun, rfl, rfl⟩)
    exact (Nat.mod_le ..).trans_lt (hlt hv)
  · cases he.symm.trans h
    rcases hpair with rfl | rfl <;>
      exact .intro o0 o1 0#32 s.rk s.rkv (fun hz => nomatch hz) (fun hz => nomatch hz) (fun _ => rfl)
        (fun _ => by decide) (.inr ⟨nofun, rfl, rfl⟩)
  · cases he.symm.trans h
    have h0 : i.leavesOut0 = true := i.leavesOut0_iff.2 ⟨hset, hi, hg2⟩
    have h1 : i.leavesOut1 = false := Bool.eq_false_iff.2 fun hc => (i.leavesOut1_iff.1 hc).elim hsub hf5
    have hr : i.leavesRes32 = false := Bool.eq_false_iff.2 fun hc => hg2 (i.leavesRes32_iff.1 hc)
    have hby := ExecutedBy.intro (i := i) (s := s) o0 zero128 0#32 s.rk s.rkv (fun hz => by simp [h0] at hz)
      (fun _ => rfl) (fun _ => rfl) (fun _ => by decide) (.inr ⟨hset, rfl, rfl⟩)
    rwa [h0, h1, hr] at hby

/-- What a command other than `CLR` did: it was turned away and refused, or it was executed. -/
theorem exec_outcome {i : Instr} {s t : State} (hi : i ≠ .clr) (h : exec i s = .next t) :
    (∃ code, TurnedAway i s code ∧ t = refusedWith i.opcode code s) ∨
    ((∀ code, ¬ TurnedAway i s code) ∧ ExecutedBy i s t) := by
  by_cases hn : ∃ code, TurnedAway i s code
  · obtain ⟨code, hcode⟩ := hn
    cases (exec_of_turnedAway hcode).symm.trans h
    exact .inl ⟨code, hcode, rfl⟩
  · have hn := not_exists.1 hn
    exact .inr ⟨hn, executedBy_of_exec hi hn h⟩

/-- What the delivery of the word `c` to `s` does. -/
inductive DeliveryOutcome (c : Word32) (s : State) : State → Prop where
  /-- The word of `CLR` resets the engine (R240). -/
  | clr (hc : c = 0x00000007#32) : DeliveryOutcome c s (resetEngine s)
  /-- A word that `Check` turns away is refused with its code (R254). -/
  | refused (hc : c ≠ 0x00000007#32) (hcheck : check c s ≠ eNone) :
      DeliveryOutcome c s (refusedWith (opField c) (check c s) s)
  /-- A word that passes `Check` has its command executed (R84). -/
  | executed (hc : c ≠ 0x00000007#32) (hcheck : check c s = eNone) (i : Instr) (t : State)
      (hdecode : decode c = .ok i) (hi : i ≠ .clr) (ht : ExecutedBy i s t) : DeliveryOutcome c s t

/-- The delivery of a word is one of the three outcomes. -/
theorem deliver_outcome {c : Word32} {s t : State} (h : deliver c s = .next t) : DeliveryOutcome c s t := by
  unfold deliver at h
  split at h
  · next i hd =>
    by_cases hi : i = .clr
    · subst hi
      cases h
      exact .clr ((decode_eq_clr_iff c).1 hd)
    have hc : c ≠ 0x00000007#32 := fun hc => hi (Except.ok.inj (hd.symm.trans ((decode_eq_clr_iff c).2 hc)))
    rcases exec_outcome hi h with ⟨code, hcode, rfl⟩ | ⟨hn, ht⟩
    · have hcheck := check_of_turnedAway hd hcode
      rw [← hcheck, ← opField_of_ok hd]
      exact .refused hc (hcheck ▸ hcode.code_ne)
    · have hcheck : check c s = eNone := by
        by_contra hne
        exact (turnedAway_of_check hd hne).elim hn
      exact .executed hc hcheck i t hd hi ht
  · next e hd =>
    cases h
    have hc : c ≠ 0x00000007#32 := fun hc => nomatch hd.symm.trans ((decode_eq_clr_iff c).2 hc)
    have hcheck := (check_decode c s).1 e hd
    rw [refuse_eq_refusedWith, ← hcheck]
    exact .refused hc (by rw [hcheck]; cases e <;> decide)

end Sys2Proof.Machine
end

section
/-! SUPPORT. What one step does: a reset, a refusal, an executed command, or an access that touches at most `KEY`, `IB`
and the read data (`20_memory.md` R51, R55 to R58, `70_reset_and_hazards.md` R291). -/

namespace Sys2Proof.Machine

/-- `KEY` stands at the offsets 0x010 to 0x01F (R51). -/
theorem regionOf_eq_key_iff (msgMax off : Nat) : regionOf msgMax off = .key ↔ 0x010 ≤ off ∧ off ≤ 0x01F := by
  unfold regionOf
  split_ifs <;> simp <;> omega

/-- `IB` stands at the `MSG_MAX` offsets from 0x100 on (R51). -/
theorem regionOf_eq_ib_iff (msgMax off : Nat) : regionOf msgMax off = .ib ↔ 0x100 ≤ off ∧ off < 0x100 + msgMax := by
  unfold regionOf
  split_ifs <;> simp <;> omega

/-- `IB` is in canonical form and inside `MSG_MAX` (R22). -/
def BufferOk (s : State) : Prop := s.ib.wf ∧ ∀ cell ∈ s.ib, cell.1 < s.cfg.msgMax

/-- A byte write outside the offsets of `KEY` leaves `KEY` (R56). -/
theorem putByte_key_of_outside {off : Nat} (v : Byte) (s : State) (h : off < 0x010 ∨ 0x01F < off) :
    (putByte off v s).key = s.key := by
  rcases putByte_cases off v s with ⟨hreg, -⟩ | ⟨-, hput⟩ | ⟨-, -, hput⟩
  · have := (regionOf_eq_key_iff ..).1 hreg
    omega
  · rw [hput]
  · rw [hput]

/-- A byte write below the offsets of `IB` leaves `IB` (R56). -/
theorem putByte_ib_of_below {off : Nat} (v : Byte) (s : State) (h : off < 0x100) : (putByte off v s).ib = s.ib := by
  rcases putByte_cases off v s with ⟨-, hput⟩ | ⟨hreg, -⟩ | ⟨-, -, hput⟩
  · rw [hput]
  · have := (regionOf_eq_ib_iff ..).1 hreg
    omega
  · rw [hput]

/-- A byte write keeps `IB` in order. -/
theorem putByte_bufferOk (off : Nat) (v : Byte) {s : State} (h : BufferOk s) : BufferOk (putByte off v s) := by
  rcases putByte_cases off v s with ⟨-, hput⟩ | ⟨hreg, hput⟩ | ⟨-, -, hput⟩
  · rwa [hput]
  · rw [hput]
    obtain ⟨hwf, hinside⟩ := h
    have hoff := (regionOf_eq_ib_iff ..).1 hreg
    refine ⟨Memory.wf_write hwf _ v, fun cell hcell => ?_⟩
    rcases Memory.mem_write hcell with hold | ⟨rfl, -⟩
    · exact hinside cell hold
    · show off - 0x100 < s.cfg.msgMax
      omega
  · rwa [hput]

/-- An aligned word write outside the offsets of `KEY` leaves `KEY` (R58). -/
theorem putWord_key_of_outside {off : Nat} (v : Word32) (s : State) (hal : off % 4 = 0)
    (h : off < 0x010 ∨ 0x01F < off) : (putWord off v s).key = s.key := by
  rw [putWord, putByte_key_of_outside _ _ (by omega), putByte_key_of_outside _ _ (by omega),
    putByte_key_of_outside _ _ (by omega), putByte_key_of_outside _ _ h]

/-- An aligned word write below the offsets of `IB` leaves `IB` (R58). -/
theorem putWord_ib_of_below {off : Nat} (v : Word32) (s : State) (hal : off % 4 = 0) (h : off < 0x100) :
    (putWord off v s).ib = s.ib := by
  rw [putWord, putByte_ib_of_below _ _ (by omega), putByte_ib_of_below _ _ (by omega),
    putByte_ib_of_below _ _ (by omega), putByte_ib_of_below _ _ h]

/-- A word write keeps `IB` in order. -/
theorem putWord_bufferOk (off : Nat) (v : Word32) {s : State} (h : BufferOk s) : BufferOk (putWord off v s) :=
  putByte_bufferOk _ _ (putByte_bufferOk _ _ (putByte_bufferOk _ _ (putByte_bufferOk _ _ h)))

/-- `AccessedBy e s t`: `t` is what the access `e`, neither a reset nor a write of `CMD`, leaves of `s`. -/
inductive AccessedBy (e : HostEvent) (s : State) : State → Prop where
  /-- The bytes and the read data the access leaves. -/
  | intro (key : Octet16) (ib : Memory) (rdata : Option ReadData)
      (keyWritten : key ≠ s.key → ∃ off size v, e = .write off size v ∧ 0x010 ≤ off ∧ off ≤ 0x01F)
      (ibWritten : ib ≠ s.ib → ∃ off size v, e = .write off size v ∧ 0x100 ≤ off)
      (bufferOk : BufferOk s → BufferOk { s with ib := ib }) :
      AccessedBy e s { s with key := key, ib := ib, rdata := rdata }

/-- A legal read is an access that changes the read data only (R60). -/
theorem accessedBy_hostRead (e : HostEvent) (off size : Nat) (s : State) : AccessedBy e s (hostRead off size s) :=
  .intro s.key s.ib _ (absurd rfl) (absurd rfl) id

/-- A write that changes at most `KEY` and `IB`, each from its own offsets only, is an access. -/
theorem accessedBy_of_frame {off : Nat} (size : Nat) (v : Word32) {s t : State}
    (hframe : ∃ key ib, t = { s with key := key, ib := ib })
    (hkey : off < 0x010 ∨ 0x01F < off → t.key = s.key) (hib : off < 0x100 → t.ib = s.ib)
    (hok : BufferOk s → BufferOk t) : AccessedBy (.write off size v) s t := by
  obtain ⟨key, ib, rfl⟩ := hframe
  refine .intro key ib s.rdata (fun hne => ⟨off, size, v, rfl, ?_⟩) (fun hne => ⟨off, size, v, rfl, ?_⟩) hok
  · by_contra hout
    exact hne (hkey (by omega))
  · by_contra hout
    exact hne (hib (by omega))

/-- A byte write is an access (R56). -/
theorem accessedBy_putByte (off : Nat) (v : Word32) (s : State) :
    AccessedBy (.write off 1 v) s (putByte off (busByte v 0) s) :=
  accessedBy_of_frame 1 v (putByte_frame ..) (putByte_key_of_outside _ s) (putByte_ib_of_below _ s)
    (putByte_bufferOk _ _)

/-- An aligned word write anywhere but at `CMD` is an access (R58). -/
theorem accessedBy_putWord {off : Nat} (v : Word32) (s : State) (hal : off % 4 = 0) :
    AccessedBy (.write off 4 v) s (putWord off v s) :=
  accessedBy_of_frame 4 v (putWord_frame ..) (putWord_key_of_outside v s hal) (putWord_ib_of_below v s hal)
    (putWord_bufferOk _ _)

/-- What the event `e`, when it has a next state, does to `s`. -/
inductive EventOutcome (e : HostEvent) (s : State) : State → Prop where
  /-- A hard reset or the word of `CLR` (R291). -/
  | reset (he : ResetEvent e) : EventOutcome e s (resetEngine s)
  /-- A command word that is refused (R254). -/
  | refused (c : Word32) (he : e = .write 0x000 4 c) (hreset : ¬ ResetEvent e) (hcheck : check c s ≠ 0x00#8) :
      EventOutcome e s (refusedWith (opField c) (check c s) s)
  /-- A command word that is executed (R84). -/
  | executed (c : Word32) (i : Instr) (t : State) (he : e = .write 0x000 4 c) (hreset : ¬ ResetEvent e)
      (hcheck : check c s = 0x00#8) (hdecode : decode c = .ok i) (hi : i ≠ .clr) (ht : ExecutedBy i s t) :
      EventOutcome e s t
  /-- An access that delivers no word (R55 to R58). -/
  | access (t : State) (hreset : ¬ ResetEvent e) (hcommand : ∀ c, e ≠ .write 0x000 4 c) (ht : AccessedBy e s t) :
      EventOutcome e s t

/-- A write of `CMD` is a reset exactly when it writes the word of `CLR` (R291). -/
theorem resetEvent_command_iff (c : Word32) : ResetEvent (.write 0x000 4 c) ↔ c = 0x00000007#32 := by
  simp [ResetEvent]

/-- An event that has a next state is one of the four outcomes. -/
theorem hostEvent_outcome {e : HostEvent} {s t : State} (h : hostEvent e s = .next t) : EventOutcome e s t := by
  rcases hostEvent_cases h with ⟨off, size, rfl, -, rfl⟩ | ⟨off, v, rfl, -, rfl⟩ | ⟨off, v, rfl, hlegal, hoff, rfl⟩ |
      ⟨c, rfl, hd⟩ | ⟨rfl, rfl⟩
  · exact .access _ (by simp [ResetEvent]) nofun (accessedBy_hostRead ..)
  · exact .access _ (by simp [ResetEvent]) (by simp) (accessedBy_putByte ..)
  · have hal : off % 4 = 0 := by
      by_contra hmis
      exact hlegal (.inr (.inl ⟨rfl, hmis⟩))
    exact .access _ (by simp [ResetEvent, hoff]) (by simp [hoff]) (accessedBy_putWord v s hal)
  · have hreset := resetEvent_command_iff c
    cases deliver_outcome hd with
    | clr hc => exact .reset (hreset.2 hc)
    | refused hc hcheck => exact .refused c rfl (mt hreset.1 hc) hcheck
    | executed hc hcheck i _ hdecode hi ht => exact .executed c i t rfl (mt hreset.1 hc) hcheck hdecode hi ht
  · exact .reset (.inl rfl)

/-- What a step with an event pending does. -/
theorem step_outcome {s t : State} {e : HostEvent} {rest : List HostEvent} (hp : s.pending = e :: rest)
    (h : step s = .next t) : EventOutcome e (takeEvent rest s) t :=
  hostEvent_outcome ((step_of_event hp).symm.trans h)

/-- The outcome of a step, clause by clause of its event. -/
theorem step_clauses {s t : State} {e : HostEvent} {rest : List HostEvent} (hp : s.pending = e :: rest)
    (h : step s = .next t) :
    (ResetEvent e → t = resetEngine (takeEvent rest s)) ∧
    (∀ c, e = .write 0x000 4 c → ¬ ResetEvent e →
      (check c s = 0x00#8 → ∃ i, decode c = .ok i ∧ i ≠ .clr ∧ ExecutedBy i (takeEvent rest s) t) ∧
      (check c s ≠ 0x00#8 → t = refusedWith (opField c) (check c s) (takeEvent rest s))) ∧
    (¬ ResetEvent e → (∀ c, e ≠ .write 0x000 4 c) → AccessedBy e (takeEvent rest s) t) := by
  cases step_outcome hp h with
  | reset he => exact ⟨fun _ => rfl, fun _ _ hn => absurd he hn, fun hn => absurd he hn⟩
  | refused c he hreset hcheck =>
    subst he
    refine ⟨fun he => absurd he hreset, fun d hd _ => ?_, fun _ hno => absurd rfl (hno c)⟩
    cases hd
    exact ⟨fun hc => absurd hc hcheck, fun _ => rfl⟩
  | executed c i _ he hreset hcheck hdecode hi ht =>
    subst he
    refine ⟨fun he => absurd he hreset, fun d hd _ => ?_, fun _ hno => absurd rfl (hno c)⟩
    cases hd
    exact ⟨fun _ => ⟨i, hdecode, hi, ht⟩, absurd hcheck⟩
  | access _ hreset hcommand ht =>
    exact ⟨fun he => absurd he hreset, fun c he => absurd he (hcommand c), fun _ _ => ht⟩

end Sys2Proof.Machine
end

section
/-! SUPPORT. The invariant through each outcome of an event (`10_state.md` R22 to R31). -/

namespace Sys2Proof.Machine

/-- Taking an event off the queue keeps the invariant. -/
theorem Inv.takeEvent {s : State} (h : Inv s) (rest : List HostEvent) : Inv (takeEvent rest s) :=
  { h with }

/-- A cleared `RES32` is in the range of R25. -/
theorem zero_res32_below : (0#32 : Word32).toNat < 1000000 := by decide

/-- `Reset()` establishes the invariant from legal parameters (R290). -/
theorem inv_resetEngine {s : State} (h : s.cfg.Valid) : Inv (resetEngine s) where
  cfgValid := h
  ibCanonical := State.reset_ib_wf
  ibInside := nofun
  doneNotErr := nofun
  codeRange := Nat.zero_le 5
  errIffCode := ⟨nofun, fun hne => absurd rfl hne⟩
  stickyOfErr := nofun
  noCommandYet _ _ := ⟨rfl, rfl, rfl⟩
  doneOp := nofun
  v0Iff := ⟨nofun, fun hd => nomatch hd.1⟩
  v1Iff := ⟨nofun, fun hd => nomatch hd.1⟩
  vrIff := ⟨nofun, fun hd => nomatch hd.1⟩
  out0Zero _ := rfl
  out1Zero _ := rfl
  resZero _ := rfl
  resBelow := zero_res32_below
  bankSchedule := nofun
  bankZero _ := rfl

/-- A refusal with one of the codes 0x01 to 0x05 keeps the invariant (R254). -/
theorem Inv.refusedWith {s : State} (h : Inv s) (op : Byte) {code : Byte} (hcode : code ≠ eNone)
    (hle : code.toNat ≤ 5) : Inv (refusedWith op code s) :=
  { h with
    doneNotErr := nofun
    codeRange := hle
    errIffCode := ⟨fun _ => hcode, fun _ => rfl⟩
    stickyOfErr := fun _ => rfl
    noCommandYet := nofun
    doneOp := nofun
    v0Iff := ⟨nofun, fun hd => nomatch hd.1⟩
    v1Iff := ⟨nofun, fun hd => nomatch hd.1⟩
    vrIff := ⟨nofun, fun hd => nomatch hd.1⟩
    out0Zero := fun _ => rfl
    out1Zero := fun _ => rfl
    resZero := fun _ => rfl
    resBelow := zero_res32_below }

/-- An executed command keeps the invariant. -/
theorem Inv.executedBy {i : Instr} {s t : State} (h : Inv s) (hi : i ≠ .clr) (ht : ExecutedBy i s t) : Inv t := by
  obtain ⟨out0, out1, res32, rk, rkv, hout0, hout1, hres32, hbelow, hbank⟩ := ht
  have hclr := Instr.opcode_ne_clr hi
  refine { h with
    doneNotErr := fun _ => rfl
    codeRange := Nat.zero_le 5
    errIffCode := ⟨nofun, fun hne => absurd rfl hne⟩
    stickyOfErr := nofun
    noCommandYet := nofun
    doneOp := fun _ => ⟨isOpcode_opcode i, hclr⟩
    v0Iff := i.leavesOut0_iff_opcode.trans
      ⟨fun ⟨hset, _, hg2⟩ => ⟨rfl, hset, hg2⟩, fun ⟨_, hset, hg2⟩ => ⟨hset, hclr, hg2⟩⟩
    v1Iff := i.leavesOut1_iff_opcode.trans (and_iff_right rfl).symm
    vrIff := i.leavesRes32_iff_opcode.trans (and_iff_right rfl).symm
    out0Zero := hout0
    out1Zero := hout1
    resZero := hres32
    resBelow := hbelow h.cfgValid
    bankSchedule := fun hrkv => ?_
    bankZero := fun hrkv => ?_ }
  · rcases hbank with ⟨-, rfl, -⟩ | ⟨-, rfl, rfl⟩
    · exact ⟨s.key, rfl⟩
    · exact h.bankSchedule hrkv
  · rcases hbank with ⟨-, -, rfl⟩ | ⟨-, rfl, rfl⟩
    · cases hrkv
    · exact h.bankZero hrkv

/-- An access that delivers no word keeps the invariant. -/
theorem Inv.accessedBy {e : HostEvent} {s t : State} (h : Inv s) (ht : AccessedBy e s t) : Inv t := by
  obtain ⟨key, ib, rdata, -, -, hok⟩ := ht
  obtain ⟨hwf, hinside⟩ := hok ⟨h.ibCanonical, h.ibInside⟩
  exact { h with ibCanonical := hwf, ibInside := hinside }

/-- Every outcome of an event keeps the invariant. -/
theorem Inv.eventOutcome {e : HostEvent} {s t : State} (h : Inv s) (ht : EventOutcome e s t) : Inv t := by
  cases ht with
  | reset _ => exact inv_resetEngine h.cfgValid
  | refused c _ _ hcheck => exact h.refusedWith _ hcheck (check_le c s)
  | executed _ _ _ _ _ _ _ hi ht => exact h.executedBy hi ht
  | access _ _ _ ht => exact h.accessedBy ht

end Sys2Proof.Machine
end

section
/-! SUPPORT. The canonical form of `IB` (log entry 17), and the bits of the words `STATUS` and `CAP` read as
(`10_state.md` R28, R32). -/

namespace Sys2Proof.Machine

/-- The first entry of a canonical buffer is no unlisted byte and stands below the rest. -/
theorem Memory.head_below {a : Nat} {b : Byte} {m : Memory} (h : Memory.wf ((a, b) :: m)) :
    b ≠ unlistedByte ∧ ∀ cell ∈ m, a < cell.1 :=
  ⟨h.2 (a, b) (List.mem_cons_self ..), (List.pairwise_cons.1 h.1).1⟩

/-- The first index of a canonical buffer is not below that of a buffer it agrees with. -/
theorem Memory.head_le_of_read_eq {a a' : Nat} {b b' : Byte} {m m' : Memory} (h : Memory.wf ((a, b) :: m))
    (h' : Memory.wf ((a', b') :: m'))
    (hread : ∀ i, Memory.read ((a, b) :: m) i = Memory.read ((a', b') :: m') i) : a' ≤ a := by
  by_contra hlt
  have hlow : Memory.read ((a', b') :: m') a = unlistedByte := Memory.read_below fun cell hcell => by
    rcases List.mem_cons.1 hcell with rfl | hcell
    · exact Nat.lt_of_not_le hlt
    · exact (Nat.lt_of_not_le hlt).trans ((Memory.head_below h').2 cell hcell)
  exact (Memory.head_below h).1 (Memory.read_head.symm.trans ((hread a).trans hlow))

/-- Canonical buffers that read the same everywhere are equal. -/
theorem Memory.ext_of_read {m m' : Memory} (h : m.wf) (h' : m'.wf) (hread : ∀ i, m.read i = m'.read i) : m = m' := by
  induction m generalizing m' with
  | nil =>
    cases m' with
    | nil => rfl
    | cons c m' =>
      obtain ⟨a, b⟩ := c
      exact absurd (Memory.read_head.symm.trans (hread a).symm) (Memory.head_below h').1
  | cons c m ih =>
    obtain ⟨a, b⟩ := c
    cases m' with
    | nil => exact absurd (Memory.read_head.symm.trans (hread a)) (Memory.head_below h).1
    | cons c' m' =>
      obtain ⟨a', b'⟩ := c'
      obtain rfl : a = a' := Nat.le_antisymm
        (Memory.head_le_of_read_eq h' h fun i => (hread i).symm) (Memory.head_le_of_read_eq h h' hread)
      obtain rfl : b = b' := by simpa [Memory.read_head] using hread a
      have htail : ∀ i, Memory.read m i = Memory.read m' i := fun i => by
        by_cases hi : a = i
        · subst hi
          rw [Memory.read_below (Memory.head_below h).2, Memory.read_below (Memory.head_below h').2]
        · simpa [Memory.read, hi] using hread i
      rw [ih (Memory.wf_tail h) (Memory.wf_tail h') htail]

/-- A flag stands at its own bit only (R28). -/
theorem flagBit_getElem (b : Bool) (k i : Nat) (hi : i < 32) : (flagBit b k)[i] = (decide (i = k) && b) := by
  by_cases hik : i = k
  · simp [flagBit, hik]
  · simp [flagBit, hik]
    omega

/-- Bits of a word that a field does not reach are zero. -/
theorem extractLsb'_field_of_disjoint {w lo n k : Nat} (x : BitVec w) (h : k + w ≤ lo ∨ lo + n ≤ k) :
    (x.setWidth 32 <<< k).extractLsb' lo n = 0#n := by
  ext i hi
  have : lo + i < k ∨ w ≤ lo + i - k := by omega
  rcases this with hlow | hhigh
  · simp [hlow]
  · simp [BitVec.getLsbD_of_ge x _ hhigh]

/-- The bits of a word where a field stands are the field. -/
theorem extractLsb'_field {w k : Nat} (x : BitVec w) (h : k + w ≤ 32) :
    (x.setWidth 32 <<< k).extractLsb' k w = x := by
  ext i hi
  simp [show k + i < 32 by omega, hi]

/-- `CAP` is `MSG_MAX` with the version above it (R32). -/
theorem capWord_eq_append {cfg : Config} (h : cfg.Valid) :
    capWord cfg = (0x0001#16 ++ BitVec.ofNat 16 cfg.msgMax : BitVec (16 + 16)) := by
  obtain ⟨-, -, hmax, -, -⟩ := h
  have hlow : BitVec.ofNat 32 cfg.msgMax = (BitVec.ofNat 16 cfg.msgMax).setWidth' (by decide : 16 ≤ 16 + 16) := by
    apply BitVec.eq_of_toNat_eq
    simp
    omega
  rw [BitVec.append_def, capWord, BitVec.or_comm, hlow]
  rfl

end Sys2Proof.Machine
end

section
/-! SUPPORT. Who writes each element of the state: `10_state.md` R34, read off the outcome of an event. -/

namespace Sys2Proof.Machine

section
variable {e : HostEvent} {s t : State}

/-- `KEY` is written through its own offsets and by a reset (R34). -/
theorem EventOutcome.key_writer (h : EventOutcome e s t) (hne : t.key ≠ s.key) :
    ResetEvent e ∨ ∃ off size v, e = .write off size v ∧ 0x010 ≤ off ∧ off ≤ 0x01F := by
  cases h with
  | reset he => exact .inl he
  | refused => exact absurd rfl hne
  | executed _ _ _ _ _ _ _ _ ht =>
    cases ht
    exact absurd rfl hne
  | access _ _ _ ht =>
    obtain ⟨_, _, _, hkey, -, -⟩ := ht
    exact .inr (hkey hne)

/-- `IB` is written through its own offsets and by a reset (R34). -/
theorem EventOutcome.ib_writer (h : EventOutcome e s t) (hne : t.ib ≠ s.ib) :
    ResetEvent e ∨ ∃ off size v, e = .write off size v ∧ 0x100 ≤ off := by
  cases h with
  | reset he => exact .inl he
  | refused => exact absurd rfl hne
  | executed _ _ _ _ _ _ _ _ ht =>
    cases ht
    exact absurd rfl hne
  | access _ _ _ ht =>
    obtain ⟨_, _, _, -, hib, -⟩ := ht
    exact .inr (hib hne)

/-- The results and the record of the last command are written by command words and the hard reset (R34). -/
theorem EventOutcome.results_writer (h : EventOutcome e s t) (hne : ¬ SameResults s t) :
    e = .hardReset ∨ ∃ c, e = .write 0x000 4 c := by
  cases h with
  | reset he => exact he.imp_right fun hclr => ⟨_, hclr⟩
  | refused c he => exact .inr ⟨c, he⟩
  | executed c _ _ he => exact .inr ⟨c, he⟩
  | access _ _ _ ht =>
    cases ht
    exact absurd ⟨rfl, rfl, rfl, rfl, rfl, rfl, rfl, rfl, rfl, rfl⟩ hne

/-- The round-key bank is kept, loaded by `SETKEY 16`, or cleared by a reset (R26, R27, R36). -/
theorem EventOutcome.bank (h : EventOutcome e s t) :
    (t.rk = s.rk ∧ t.rkv = s.rkv) ∨
    (e = .write 0x000 4 0x00100001#32 ∧ t.rk = keyExpansion s.key ∧ t.rkv = true) ∨
    (ResetEvent e ∧ t.rk = Vector.replicate 44 0#32 ∧ t.rkv = false) := by
  cases h with
  | reset he => exact .inr (.inr ⟨he, rfl, rfl⟩)
  | refused => exact .inl ⟨rfl, rfl⟩
  | executed c i _ he _ _ hdecode _ ht =>
    obtain ⟨_, _, _, _, _, -, -, -, -, ⟨rfl, hrk, hrkv⟩ | ⟨-, hrk, hrkv⟩⟩ := ht
    · have hc : c = 0x00100001#32 := (encode_of_decode hdecode).symm.trans (by decide)
      exact .inr (.inl ⟨hc ▸ he, hrk, hrkv⟩)
    · exact .inl ⟨hrk, hrkv⟩
  | access _ _ _ ht =>
    cases ht
    exact .inl ⟨rfl, rfl⟩

/-- `ESTICKY` is written by a refusal and by a reset (R30). -/
theorem EventOutcome.esticky_writer (h : EventOutcome e s t) (hne : t.esticky ≠ s.esticky) :
    ResetEvent e ∨ ∃ c, e = .write 0x000 4 c ∧ check c s ≠ 0x00#8 := by
  cases h with
  | reset he => exact .inl he
  | refused c he _ hcheck => exact .inr ⟨c, he, hcheck⟩
  | executed _ _ _ _ _ _ _ _ ht =>
    cases ht
    exact absurd rfl hne
  | access _ _ _ ht =>
    cases ht
    exact absurd rfl hne

/-- A zero result with a clear flag is no result. -/
theorem no_result {α : Type} {result zero : α} {flag : Bool} (hzero : result = zero) (hflag : flag = false) :
    ¬ (result ≠ zero ∨ flag = true) := by
  simp [hzero, hflag]

/-- A result that is zero while its flag is clear is there only with its flag. -/
theorem flag_of_result {α : Type} {result zero : α} {flag : Bool} (hzero : flag = false → result = zero)
    (h : result ≠ zero ∨ flag = true) : flag = true :=
  by_contra fun hflag => no_result (hzero (Bool.eq_false_iff.2 hflag)) (Bool.eq_false_iff.2 hflag) h

/-- After a command word a result is there only if the word was executed and its command leaves that result
(R34, R87). -/
theorem EventOutcome.results_of_command {c : Word32} (h : EventOutcome (.write 0x000 4 c) s t) :
    (t.out0 ≠ zero128 ∨ t.v0 = true →
      check c s = 0x00#8 ∧ opField c ≠ 0x01#8 ∧ opField c ≠ 0x07#8 ∧ opField c ≠ 0x13#8) ∧
    (t.out1 ≠ zero128 ∨ t.v1 = true → check c s = 0x00#8 ∧ (opField c = 0x06#8 ∨ opField c = 0x11#8)) ∧
    (t.res32 ≠ 0#32 ∨ t.vr = true → check c s = 0x00#8 ∧ opField c = 0x13#8) := by
  cases h with
  | reset => exact ⟨(no_result rfl rfl).elim, (no_result rfl rfl).elim, (no_result rfl rfl).elim⟩
  | refused => exact ⟨(no_result rfl rfl).elim, (no_result rfl rfl).elim, (no_result rfl rfl).elim⟩
  | executed d i _ he _ hcheck hdecode _ ht =>
    cases he
    rw [opField_of_ok hdecode]
    obtain ⟨_, _, _, _, _, hout0, hout1, hres32, -, -⟩ := ht
    exact ⟨fun hr => ⟨hcheck, i.leavesOut0_iff_opcode.1 (flag_of_result hout0 hr)⟩,
      fun hr => ⟨hcheck, i.leavesOut1_iff_opcode.1 (flag_of_result hout1 hr)⟩,
      fun hr => ⟨hcheck, i.leavesRes32_iff_opcode.1 (flag_of_result hres32 hr)⟩⟩
  | access _ _ hcommand => exact absurd rfl (hcommand c)

end

end Sys2Proof.Machine
end

section
/-! PROOF. The obligations of `10_state.md`. -/

namespace Sys2Proof.Machine

/-- Settles O19: the invariant goes through each outcome of the event, and the idle step changes nothing. -/
theorem stepKeepsInv : Obligations.StepKeepsInv := by
  intro s t hinv hstep
  rcases step_cases hstep with ⟨-, rfl⟩ | ⟨e, rest, -, he⟩
  · exact hinv
  · exact (hinv.takeEvent rest).eventOutcome (hostEvent_outcome he)

/-- Settles O11: reset, a refusal and an execution write both flags, an access neither. -/
theorem doneOrErrAfterCommand : Obligations.DoneOrErrAfterCommand := by
  intro s t e rest hp hstep
  obtain ⟨hreset, hword, haccess⟩ := step_clauses hp hstep
  refine ⟨fun he => ?_, fun c he hn => ?_, fun hn hno => ?_⟩
  · rw [hreset he]
    exact ⟨rfl, rfl⟩
  · obtain ⟨hexec, hrefuse⟩ := hword c he hn
    split
    · next hc =>
      obtain ⟨i, -, -, ⟨⟩⟩ := hexec hc
      exact ⟨rfl, rfl⟩
    · next hc =>
      rw [hrefuse hc]
      exact ⟨rfl, rfl⟩
  · cases haccess hn hno
    exact ⟨rfl, rfl⟩

/-- Settles O12: reset clears the flag, a refusal sets it, an execution and an access leave it. -/
theorem stickyFlag : Obligations.StickyFlag := by
  intro s t e rest hp hstep
  obtain ⟨hreset, hword, haccess⟩ := step_clauses hp hstep
  refine ⟨fun he => ?_, fun c he hn => ?_, fun hn hno => ?_⟩
  · rw [hreset he]
    rfl
  · obtain ⟨hexec, hrefuse⟩ := hword c he hn
    split
    · next hc =>
      obtain ⟨i, -, -, ⟨⟩⟩ := hexec hc
      rfl
    · next hc =>
      rw [hrefuse hc]
      rfl
  · cases haccess hn hno
    rfl

/-- Settles O13, element by element from the outcome of the event. -/
theorem writersOfEachElement : Obligations.WritersOfEachElement := by
  intro s t e rest hp hstep
  have h := step_outcome hp hstep
  refine ⟨h.key_writer, fun ⟨j, hj⟩ => h.ib_writer fun heq => hj (heq ▸ rfl), h.results_writer, fun hne => ?_,
    h.esticky_writer, fun c he => (he ▸ h).results_of_command⟩
  rcases h.bank with ⟨hrk, hrkv⟩ | ⟨he, -⟩ | ⟨he, -⟩
  · exact hne.elim (absurd hrk) (absurd hrkv)
  · exact .inr he
  · exact .inl he

/-- Settles O14: the bank through the idle step and through each outcome of an event. -/
theorem bankChangesOnlyBySetkeyAndReset : Obligations.BankChangesOnlyBySetkeyAndReset := by
  intro s t hstep
  rcases step_cases hstep with ⟨-, rfl⟩ | ⟨e, rest, hp, he⟩
  · exact .inl ⟨rfl, rfl⟩
  · refine (hostEvent_outcome he).bank.imp_right (Or.imp ?_ ?_)
    · rintro ⟨rfl, hrk⟩
      exact ⟨⟨rest, hp⟩, hrk⟩
    · rintro ⟨hreset, hrk⟩
      exact ⟨⟨e, rest, hp, hreset⟩, hrk⟩

/-- Settles O15, for a command that is turned away and for one that is executed. -/
theorem commandLeavesOperands : Obligations.CommandLeavesOperands := by
  intro i s t hi h
  rcases exec_outcome hi h with ⟨code, -, rfl⟩ | ⟨-, ht⟩
  · exact ⟨rfl, fun _ => rfl, rfl, rfl, rfl, rfl, fun _ => ⟨rfl, rfl⟩, nofun, rfl⟩
  · obtain ⟨_, _, _, _, _, -, -, -, -, hbank⟩ := ht
    refine ⟨rfl, fun _ => rfl, rfl, rfl, rfl, rfl, fun hset => ?_, fun _ => rfl, rfl⟩
    rcases hbank with ⟨heq, -⟩ | ⟨-, hrk⟩
    · exact absurd heq (hset 16)
    · exact hrk

/-- Settles O16: a command that is turned away leaves no result, an executed one those it has. -/
theorem resultWriters : Obligations.ResultWriters := by
  intro i s t hi h
  rcases exec_outcome hi h with ⟨code, hcode, rfl⟩ | ⟨-, ht⟩
  · obtain ⟨hsub, hf5, hg2⟩ := hcode.ne_pair_and_g2
    exact ⟨⟨nofun, fun hd => nomatch hd.1⟩, ⟨nofun, fun hpair => absurd hpair (not_or.2 ⟨hsub, hf5⟩)⟩,
      ⟨nofun, fun heq => absurd heq hg2⟩, fun _ => rfl, fun _ => rfl, fun _ => rfl⟩
  · obtain ⟨_, _, _, _, _, hout0, hout1, hres32, -, -⟩ := ht
    refine ⟨i.leavesOut0_iff.trans ?_, i.leavesOut1_iff, i.leavesRes32_iff, hout0, hout1, hres32⟩
    exact ⟨fun ⟨hset, _, hg2⟩ => ⟨rfl, hset, hg2⟩, fun ⟨_, hset, hg2⟩ => ⟨hset, hi, hg2⟩⟩

/-- Settles O20. -/
theorem canonicalBuffersEqual : Obligations.CanonicalBuffersEqual :=
  fun _ _ h h' hread => Memory.ext_of_read h h' hread

/-- Settles O25: the flags stand at bits 0 to 6, below the byte fields. -/
theorem statusFields : Obligations.StatusFields := by
  intro s
  refine ⟨?_, ?_, ?_, ?_, ?_, ?_, ?_, ?_, ?_, ?_, ?_⟩
  iterate 8 · simp [statusWord, flagBit_getElem]
  all_goals
    simp (disch := omega) only [statusWord, flagBit, BitVec.extractLsb'_or, extractLsb'_field_of_disjoint,
      extractLsb'_field, BitVec.or_zero, BitVec.zero_or]

/-- Settles O26: `CAP` is the version above `MSG_MAX`. -/
theorem capFields : Obligations.CapFields := by
  intro cfg h
  rw [capWord_eq_append h, BitVec.extractLsb'_append_eq_of_add_le (by decide),
    BitVec.extractLsb'_append_eq_of_le (by decide), BitVec.extractLsb'_append_eq_of_le (by decide)]
  refine ⟨?_, by decide, by decide⟩
  obtain ⟨-, -, hmax, -, -⟩ := h
  simp
  omega

end Sys2Proof.Machine
end

section
/-! SUPPORT. The host accesses of the window (`20_memory.md` R51 to R59): which of them are legal, where each region
stands, and the bytes of a word read there. -/

namespace Sys2Proof.Machine

/-- One byte is legal exactly at the offsets of the `bytes` regions (R55, R56, R59). -/
theorem not_illegalAccess_byte_iff (msgMax off : Nat) : ¬ IllegalAccess msgMax off 1 ↔ BytesOffset msgMax off := by
  unfold IllegalAccess BytesOffset
  omega

/-- Four bytes are legal exactly at the 4-aligned offsets of the registers (R57, R58, R59). -/
theorem not_illegalAccess_word_iff (msgMax off : Nat) :
    ¬ IllegalAccess msgMax off 4 ↔ off % 4 = 0 ∧ (off ≤ 0x00F ∨ BytesOffset msgMax off) := by
  unfold IllegalAccess BytesOffset
  omega

/-- A read that R59 does not list returns its value. -/
theorem hostEvent_read_of_legal {off size : Nat} {s : State} (h : ¬ IllegalAccess s.cfg.msgMax off size) :
    hostEvent (.read off size) s = .next (hostRead off size s) := by
  rw [hostEvent_read, if_pos ((legalAccess_iff ..).2 h)]

/-- A write that R59 does not list is done. -/
theorem hostEvent_write_of_legal {off size : Nat} (v : Word32) {s : State}
    (h : ¬ IllegalAccess s.cfg.msgMax off size) : hostEvent (.write off size v) s = hostWrite off size v s := by
  rw [hostEvent_write, if_pos ((legalAccess_iff ..).2 h)]

/-- The value of a read does not depend on what an earlier read returned (R60). -/
theorem hostRead_setRdata (off size : Nat) (d : Option ReadData) (s : State) :
    hostRead off size { s with rdata := d } = hostRead off size s := rfl

/-- A 1-byte read of a `bytes` region (R55). -/
theorem hostEvent_readByte {off : Nat} {s : State} (h : BytesOffset s.cfg.msgMax off) :
    hostEvent (.read off 1) s = .next { s with rdata := some (.byte (windowByte s off)) } :=
  hostEvent_read_of_legal ((not_illegalAccess_byte_iff ..).2 h)

/-- A 4-byte read of a register (R57). -/
theorem hostEvent_readWord {off : Nat} {s : State} (hal : off % 4 = 0)
    (h : off ≤ 0x00F ∨ BytesOffset s.cfg.msgMax off) :
    hostEvent (.read off 4) s = .next { s with rdata := some (.word (windowWord s off)) } :=
  hostEvent_read_of_legal ((not_illegalAccess_word_iff ..).2 ⟨hal, h⟩)

/-- A 1-byte write of a `bytes` region (R56). -/
theorem hostEvent_writeByte {off : Nat} (v : Word32) {s : State} (h : BytesOffset s.cfg.msgMax off) :
    hostEvent (.write off 1 v) s = .next (putByte off (busByte v 0) s) :=
  hostEvent_write_of_legal v ((not_illegalAccess_byte_iff ..).2 h)

/-- A 4-byte write of a register other than `CMD` (R58). -/
theorem hostEvent_writeWord {off : Nat} (v : Word32) {s : State} (hal : off % 4 = 0) (hcmd : off ≠ 0x000)
    (h : off ≤ 0x00F ∨ BytesOffset s.cfg.msgMax off) :
    hostEvent (.write off 4 v) s = .next (putWord off v s) := by
  rw [hostEvent_write_of_legal v ((not_illegalAccess_word_iff ..).2 ⟨hal, h⟩), hostWrite, if_neg (by decide),
    if_neg hcmd]

/-- A 4-byte write of `CMD` delivers its word (R58). -/
theorem hostEvent_writeCmd (c : Word32) (s : State) : hostEvent (.write 0x000 4 c) s = deliver c s := rfl

/-- `OUT0` stands at the offsets 0x020 to 0x02F (R51). -/
theorem regionOf_eq_out0_iff (msgMax off : Nat) : regionOf msgMax off = .out0 ↔ 0x020 ≤ off ∧ off ≤ 0x02F := by
  unfold regionOf
  split_ifs <;> simp <;> omega

/-- `OUT1` stands at the offsets 0x030 to 0x03F (R51). -/
theorem regionOf_eq_out1_iff (msgMax off : Nat) : regionOf msgMax off = .out1 ↔ 0x030 ≤ off ∧ off ≤ 0x03F := by
  unfold regionOf
  split_ifs <;> simp <;> omega

/-- The regions at the offsets of `BytesOffset` (R51). -/
theorem BytesOffset.region {msgMax off : Nat} (h : BytesOffset msgMax off) :
    regionOf msgMax off = .key ∨ regionOf msgMax off = .out0 ∨ regionOf msgMax off = .out1 ∨
      regionOf msgMax off = .ib := by
  rw [regionOf_eq_key_iff, regionOf_eq_out0_iff, regionOf_eq_out1_iff, regionOf_eq_ib_iff]
  unfold BytesOffset at h
  omega

/-- With a legal `MSG_MAX` a word at a 4-aligned offset of a `bytes` region stays inside it (R57). -/
theorem BytesOffset.add_of_aligned {cfg : Config} {off : Nat} (hcfg : cfg.Valid) (hal : off % 4 = 0)
    (h : BytesOffset cfg.msgMax off) (k : Fin 4) : BytesOffset cfg.msgMax (off + k.val) := by
  obtain ⟨hmult, -, -, -, -⟩ := hcfg
  unfold BytesOffset at *
  omega

/-! The window's byte in each of the four regions (R55). -/

theorem windowByte_key (s : State) (i : Nat) (h : i < 16) : windowByte s (0x010 + i) = s.key[i] := by
  simp [windowByte, (regionOf_eq_key_iff s.cfg.msgMax (0x010 + i)).2 (by omega), h]

theorem windowByte_out0 (s : State) (i : Nat) (h : i < 16) : windowByte s (0x020 + i) = s.out0[i] := by
  simp [windowByte, (regionOf_eq_out0_iff s.cfg.msgMax (0x020 + i)).2 (by omega), h]

theorem windowByte_out1 (s : State) (i : Nat) (h : i < 16) : windowByte s (0x030 + i) = s.out1[i] := by
  simp [windowByte, (regionOf_eq_out1_iff s.cfg.msgMax (0x030 + i)).2 (by omega), h]

theorem windowByte_ib {s : State} {i : Nat} (h : i < s.cfg.msgMax) : windowByte s (0x100 + i) = s.ib.read i := by
  simp [windowByte, (regionOf_eq_ib_iff s.cfg.msgMax (0x100 + i)).2 (by omega)]

/-- A word read of a `bytes` region is its four bytes, the first least significant (R57). -/
theorem windowWord_of_bytesOffset {s : State} {off : Nat} (h : BytesOffset s.cfg.msgMax off) :
    windowWord s off =
      busWord (windowByte s off) (windowByte s (off + 1)) (windowByte s (off + 2)) (windowByte s (off + 3)) := by
  unfold windowWord
  rcases h.region with hr | hr | hr | hr <;> rw [hr]

/-- Byte `k` of a word read of a `bytes` region is the window's byte at `off + k` (R52, R57). -/
theorem busByte_windowWord {s : State} {off : Nat} (h : BytesOffset s.cfg.msgMax off) (k : Fin 4) :
    busByte (windowWord s off) k = windowByte s (off + k.val) := by
  rw [windowWord_of_bytesOffset h]
  obtain ⟨h0, h1, h2, h3⟩ := busByte_busWord (windowByte s off) (windowByte s (off + 1)) (windowByte s (off + 2))
    (windowByte s (off + 3))
  match k with
  | 0 => exact h0
  | 1 => exact h1
  | 2 => exact h2
  | 3 => exact h3

/-- A bus word is fixed by its four bytes (R52). -/
theorem word_ext_of_busByte {v w : Word32} (h : ∀ k : Fin 4, busByte v k = busByte w k) : v = w := by
  apply BitVec.eq_of_getLsbD_eq
  intro i hi
  have hbit := congrArg (·.getLsbD (i % 8)) (h ⟨i / 8, by omega⟩)
  simpa [busByte, Nat.mod_lt, Nat.div_add_mod] using hbit

end Sys2Proof.Machine
end

section
/-! SUPPORT. The delivery of a command word is the frame of `30_encoding.md` R84. -/

namespace Sys2Proof.Machine

/-- The rule of a command (R83); `CLR` has none of its own in the frame. -/
def ruleOf : Instr → State → State
  | .setkey _ => ruleSetkey
  | .encrypt => ruleEncrypt
  | .aes128 => ruleAes128
  | .cmac len => ruleCmac len
  | .dbl => ruleDbl
  | .subkey => ruleSubkey
  | .clr => id
  | .f4 => ruleF4
  | .f5 => ruleF5
  | .f6 => ruleF6
  | .g2 => ruleG2
  | .h6 => ruleH6
  | .h7 => ruleH7
  | .ah => ruleAh
  | .ltk2lk useH7 => ruleLtk2lk useH7
  | .lk2ltk useH7 => ruleLk2ltk useH7

/-- The delivery of a word that decodes runs its command. -/
theorem deliver_of_decode {c : Word32} {i : Instr} (h : decode c = .ok i) (s : State) : deliver c s = exec i s := by
  rw [deliver, h]

/-- The frame's rule of a word that decodes is its command's. -/
theorem runRule_of_decode {c : Word32} {i : Instr} (h : decode c = .ok i) (s : State) : runRule c s = ruleOf i s := by
  obtain ⟨hop, huseH7, huseLen⟩ := instr_some (decode_ok h).1
  cases i with
  | cmac len =>
    obtain rfl : len = lenField c := by simpa using huseLen rfl
    simp [runRule, hop, Instr.opcode, ruleOf]
  | ltk2lk useH7 =>
    obtain rfl : useH7 = h7Field c := by simpa using huseH7 rfl
    simp [runRule, hop, Instr.opcode, ruleOf]
  | lk2ltk useH7 =>
    obtain rfl : useH7 = h7Field c := by simpa using huseH7 rfl
    simp [runRule, hop, Instr.opcode, ruleOf]
  | _ => simp [runRule, hop, Instr.opcode, ruleOf]

/-- A command that is not turned away applies its rule after the frame's bookkeeping (R84). -/
theorem exec_of_not_turnedAway {i : Instr} {s : State} (hi : i ≠ .clr) (h : ∀ code, ¬ TurnedAway i s code) :
    exec i s = .next (ruleOf i (beginCommand i.opcode s)) := by
  cases i with
  | setkey len =>
    have hlen : len = 16 := by_contra fun hne => h _ (.keyLength len s hne)
    rw [exec_setkey, if_pos hlen]
    rfl
  | encrypt =>
    have hrkv : s.rkv = true := by_contra fun hne => h _ (.noSchedule s (Bool.eq_false_iff.2 hne))
    rw [exec_encrypt, if_pos hrkv]
    rfl
  | cmac len =>
    rw [exec_cmac, if_neg fun hlt => h _ (.messageLength len s hlt)]
    rfl
  | clr => exact absurd rfl hi
  | _ => rfl

/-- The frame refuses a word that `Check` turns away (R84, R254). -/
theorem commandFrame_of_refused {c : Word32} {s : State} (h : check c s ≠ eNone) :
    commandFrame c s = refusedWith (opField c) (check c s) s := by
  rw [commandFrame, if_neg fun hclr => h hclr.1, if_pos h]
  rfl

/-- The frame runs the rule of a word that passes `Check` and is not the word of `CLR` (R84). -/
theorem commandFrame_of_executed {c : Word32} {s : State} (h : check c s = eNone) (hop : opField c ≠ 0x07#8) :
    commandFrame c s = runRule c (beginCommand (opField c) s) := by
  rw [commandFrame, if_neg fun hclr => hop hclr.2, if_neg (not_not.2 h), h]
  rfl

/-- The frame resets the engine on the word of `CLR` (R84, R240). -/
theorem commandFrame_clr (s : State) : commandFrame 0x00000007#32 s = resetEngine s := rfl

/-- The delivery of every word is the command frame (R84). -/
theorem deliver_eq_commandFrame (c : Word32) (s : State) : deliver c s = .next (commandFrame c s) := by
  obtain ⟨t, ht⟩ := deliver_total c s
  cases deliver_outcome ht with
  | clr hc => rw [ht, hc, commandFrame_clr]
  | refused _ hcheck => rw [ht, commandFrame_of_refused hcheck]
  | executed _ hcheck i _ hdecode hi _ =>
    have hpass : ∀ code, ¬ TurnedAway i s code := fun code hcode =>
      hcode.code_ne ((check_of_turnedAway hdecode hcode).symm.trans hcheck)
    have hop : opField c = i.opcode := opField_of_ok hdecode
    rw [deliver_of_decode hdecode, exec_of_not_turnedAway hi hpass,
      commandFrame_of_executed hcheck (hop ▸ i.opcode_ne_clr hi), runRule_of_decode hdecode, hop]

end Sys2Proof.Machine
end

section
/-! SUPPORT. What the writers of `KEY` and `IB` leave (`20_memory.md` R56, R58): one byte, and the bytes of a word one
after the other. -/

namespace Sys2Proof.Machine

/-- A byte write at the offsets of `KEY` (R56). -/
theorem putByte_key {i : Nat} (v : Byte) (s : State) (h : i < 16) :
    putByte (0x010 + i) v s = { s with key := s.key.set i v } := by
  simp [putByte, (regionOf_eq_key_iff s.cfg.msgMax (0x010 + i)).2 (by omega), Vector.setIfInBounds, Vector.set,
    Array.setIfInBounds, h]

/-- A byte write at the offsets of `IB` (R56). -/
theorem putByte_ib {i : Nat} (v : Byte) {s : State} (h : i < s.cfg.msgMax) :
    putByte (0x100 + i) v s = { s with ib := s.ib.write i v } := by
  simp [putByte, (regionOf_eq_ib_iff s.cfg.msgMax (0x100 + i)).2 (by omega)]

/-- A byte write outside `KEY` and `IB` is ignored (R56). -/
theorem putByte_ignored {off : Nat} (v : Byte) (s : State) (h : off < 0x010 ∨ 0x020 ≤ off ∧ off < 0x100) :
    putByte off v s = s := by
  rcases putByte_cases off v s with ⟨hreg, -⟩ | ⟨hreg, -⟩ | ⟨-, -, hput⟩
  · have := (regionOf_eq_key_iff ..).1 hreg
    omega
  · have := (regionOf_eq_ib_iff ..).1 hreg
    omega
  · exact hput

/-- The lowest `n` bytes of a bus word written to `off`, `off+1` and so on. -/
def putBytes (off : Nat) (v : Word32) : Nat → State → State
  | 0, s => s
  | n + 1, s => putByte (off + n) (busByte v n) (putBytes off v n s)

/-- A word write is the write of its four bytes (R58). -/
theorem putWord_eq_putBytes (off : Nat) (v : Word32) (s : State) : putWord off v s = putBytes off v 4 s := rfl

/-- Bytes written to `KEY` stand at their places, every other byte and all other state as before. -/
theorem putBytes_key {i n : Nat} (v : Word32) (s : State) (h : i + n ≤ 16) :
    ∃ key : Octet16, putBytes (0x010 + i) v n s = { s with key := key } ∧
      ∀ j : Fin 16, key[j] = if i ≤ j.val ∧ j.val < i + n then busByte v (j.val - i) else s.key[j] := by
  induction n with
  | zero => exact ⟨s.key, rfl, fun j => by rw [if_neg (by omega)]⟩
  | succ n ih =>
    obtain ⟨key, hput, hkey⟩ := ih (by omega)
    refine ⟨key.set (i + n) (busByte v n), ?_, fun j => ?_⟩
    · rw [putBytes, hput, Nat.add_assoc, putByte_key _ _ (by omega)]
    · rw [Fin.getElem_fin, Vector.getElem_set]
      split
      · next heq => rw [if_pos (by omega), ← heq, Nat.add_sub_cancel_left]
      · next hne =>
        exact (hkey j).trans (if_congr (by omega) rfl rfl)

/-- Bytes written to `IB` stand at their places, every other byte and all other state as before. -/
theorem putBytes_ib {i n : Nat} (v : Word32) {s : State} (hwf : s.ib.wf) (h : i + n ≤ s.cfg.msgMax) :
    ∃ m : Memory, m.wf ∧ putBytes (0x100 + i) v n s = { s with ib := m } ∧
      ∀ j, m.read j = if i ≤ j ∧ j < i + n then busByte v (j - i) else s.ib.read j := by
  induction n with
  | zero => exact ⟨s.ib, hwf, rfl, fun j => by rw [if_neg (by omega)]⟩
  | succ n ih =>
    obtain ⟨m, hm, hput, hread⟩ := ih (by omega)
    refine ⟨m.write (i + n) (busByte v n), Memory.wf_write hm _ _, ?_, fun j => ?_⟩
    · rw [putBytes, hput, Nat.add_assoc, putByte_ib _ (by simpa using by omega)]
    · rw [Memory.read_write hm]
      split
      · next heq => rw [if_pos (by omega), heq, Nat.add_sub_cancel_left]
      · next hne =>
        exact (hread j).trans (if_congr (by omega) rfl rfl)

/-- Bytes written outside `KEY` and `IB` are ignored (R58). -/
theorem putBytes_ignored {off n : Nat} (v : Word32) (s : State)
    (h : off + n ≤ 0x010 ∨ 0x020 ≤ off ∧ off + n ≤ 0x100) : putBytes off v n s = s := by
  induction n with
  | zero => rfl
  | succ n ih => rw [putBytes, ih (by omega), putByte_ignored _ _ (by omega)]

end Sys2Proof.Machine
end

section
/-! PROOF. The obligations of `20_memory.md`. -/

namespace Sys2Proof.Machine

/-- Settles O21: the port asks for legality before anything else. -/
theorem illegalAccessesRefused : Obligations.IllegalAccessesRefused := by
  intro s off size v h
  have hillegal : ¬ legalAccess s.cfg.msgMax off size = true := fun hlegal => (legalAccess_iff ..).1 hlegal h
  exact ⟨by rw [hostEvent_read, if_neg hillegal], by rw [hostEvent_write, if_neg hillegal]⟩

/-- Settles O23, region by region. -/
theorem readByteReturns : Obligations.ReadByteReturns := by
  intro s off i b h
  rcases h with ⟨hi, rfl, rfl⟩ | ⟨hi, rfl, rfl⟩ | ⟨hi, rfl, rfl⟩ | ⟨hi, rfl, rfl⟩
  · rw [hostEvent_readByte (.inl (by omega)), windowByte_key]
  · rw [hostEvent_readByte (.inl (by omega)), windowByte_out0]
  · rw [hostEvent_readByte (.inl (by omega)), windowByte_out1]
  · rw [hostEvent_readByte (.inr (by omega)), windowByte_ib hi]

/-- Settles O24: the word registers by their rows of the map, a word of a `bytes` region by its four bytes. -/
theorem readWordReturns : Obligations.ReadWordReturns := by
  intro s off w _ h
  rcases h with ⟨rfl, rfl⟩ | ⟨rfl, rfl⟩ | ⟨rfl, rfl⟩ | ⟨rfl, rfl⟩ | ⟨hal, hoff, hbytes⟩
  iterate 4 · exact hostEvent_readWord (by decide) (.inl (by decide))
  · have hw : w = windowWord s off :=
      word_ext_of_busByte fun k => (hbytes k).trans (busByte_windowWord hoff k).symm
    rw [hw]
    exact hostEvent_readWord hal (.inr hoff)

/-- Settles O27: both reads see the window's byte at `off + k`. -/
theorem wordReadIsFourByteReads : Obligations.WordReadIsFourByteReads := by
  intro s off hcfg hal hoff
  refine ⟨windowWord s off, hostEvent_readWord hal (.inr hoff), fun k => ?_⟩
  rw [hostEvent_readByte (hoff.add_of_aligned hcfg hal k), ← busByte_windowWord hoff k]
  rfl

/-- Settles O29, for `KEY`, `IB`, and the two registers a host cannot write. -/
theorem byteWriteEffect : Obligations.ByteWriteEffect := by
  intro s v hwf
  refine ⟨fun i => ?_, fun i hi => ⟨s.ib.write i (busByte v 0), ?_, Memory.read_write hwf i _⟩, fun i => ?_⟩
  · rw [hostEvent_writeByte v (.inl (by omega)), putByte_key _ _ i.isLt]
    rfl
  · rw [hostEvent_writeByte v (.inr (by omega)), putByte_ib _ hi]
  · rw [hostEvent_writeByte v (.inl (by omega)), putByte_ignored _ _ (by omega)]

/-- Settles O30: the four bytes in `KEY` and in `IB`, the command frame at `CMD`, nothing at the other registers. -/
theorem wordWriteEffect : Obligations.WordWriteEffect := by
  intro s v i hcfg hwf hal
  refine ⟨fun hi => ?_, fun hi => ?_, ?_, fun hi => ?_⟩
  · rw [hostEvent_writeWord v (by omega) (by omega) (.inr (.inl (by omega))), putWord_eq_putBytes]
    obtain ⟨key, hput, hkey⟩ := putBytes_key v s (show i + 4 ≤ 16 by omega)
    exact ⟨key, congrArg _ hput, hkey⟩
  · obtain ⟨hmult, -, -, -, -⟩ := hcfg
    rw [hostEvent_writeWord v (by omega) (by omega) (.inr (.inr (by omega))), putWord_eq_putBytes]
    obtain ⟨m, -, hput, hread⟩ := putBytes_ib v hwf (show i + 4 ≤ s.cfg.msgMax by omega)
    exact ⟨m, congrArg _ hput, hread⟩
  · rw [hostEvent_writeCmd, deliver_eq_commandFrame]
  · have hoff : i ≤ 0x00F ∨ BytesOffset s.cfg.msgMax i := by
      unfold BytesOffset
      omega
    rw [hostEvent_writeWord v hal (by omega) hoff, putWord_eq_putBytes, putBytes_ignored _ _ (by omega)]

/-- Settles O6: the step takes the event off the queue, and a write of `CMD` delivers its word. -/
theorem stepRunsDecodedCommand : Obligations.StepRunsDecodedCommand := by
  intro s e rest hp
  refine ⟨step_of_event hp, fun c i he hd => ?_⟩
  subst he
  exact (step_of_command hp).trans (deliver_of_decode hd _)

/-- Settles O28: the value of a read does not depend on the read data. -/
theorem readsAreIdempotent : Obligations.ReadsAreIdempotent := by
  intro s off size h
  exact ⟨_, hostEvent_read_of_legal h, (hostEvent_read_of_legal h).trans (congrArg _ (hostRead_setRdata ..))⟩

end Sys2Proof.Machine
end

section
/-! SUPPORT. A command word by its four fields (`30_encoding.md` R81): which words decode to a command, and the rows of
the opcode table (R83). -/

namespace Sys2Proof

/-- The operand a command carries in the field `H7` (R81, R83). -/
def Instr.h7Operand : Instr → Bool
  | .ltk2lk useH7 => useH7
  | .lk2ltk useH7 => useH7
  | _ => false

/-- The operand a command carries in the field `LEN` (R82, R83). -/
def Instr.lenOperand : Instr → Nat
  | .setkey len => len
  | .cmac len => len
  | _ => 0

/-- The command with the same opcode and these operands, where it has them (R83). -/
def Instr.withOperands : Instr → Bool → Nat → Instr
  | .setkey _, _, len => .setkey len
  | .cmac _, _, len => .cmac len
  | .ltk2lk _, useH7, _ => .ltk2lk useH7
  | .lk2ltk _, useH7, _ => .lk2ltk useH7
  | i, _, _ => i

@[simp] theorem Instr.withOperands_self (i : Instr) : i.withOperands i.h7Operand i.lenOperand = i := by
  cases i <;> rfl

@[simp] theorem Instr.mnemonic_withOperands (i : Instr) (useH7 : Bool) (len : Nat) :
    (i.withOperands useH7 len).mnemonic = i.mnemonic := by
  cases i <;> rfl

@[simp] theorem Instr.usesH7_withOperands (i : Instr) (useH7 : Bool) (len : Nat) :
    (i.withOperands useH7 len).usesH7 = i.usesH7 := by
  cases i <;> rfl

@[simp] theorem Instr.usesLen_withOperands (i : Instr) (useH7 : Bool) (len : Nat) :
    (i.withOperands useH7 len).usesLen = i.usesLen := by
  cases i <;> rfl

theorem Instr.lenOperand_withOperands_le (i : Instr) (useH7 : Bool) (len : Nat) :
    (i.withOperands useH7 len).lenOperand ≤ len := by
  cases i <;> simp [Instr.withOperands, Instr.lenOperand]

theorem Instr.usesH7_of_h7Operand {i : Instr} (h : i.h7Operand = true) : i.usesH7 = true := by
  cases i <;> simp [Instr.h7Operand, Instr.usesH7] at h ⊢

theorem Instr.usesLen_of_lenOperand {i : Instr} (h : i.lenOperand ≠ 0) : i.usesLen = true := by
  cases i <;> simp [Instr.lenOperand, Instr.usesLen] at h ⊢

/-- A command is well formed when its length fits the field `LEN` (R82). -/
theorem Instr.wellFormed_iff (i : Instr) : i.wellFormed = true ↔ i.lenOperand < 65536 := by
  cases i <;> simp [Instr.wellFormed, Instr.lenOperand]

/-- The word of a command is its opcode and its operands packed (R81, R83). -/
theorem encode_eq_pack (i : Instr) : encode i = packCommand i.opcode i.h7Operand i.lenOperand := by
  cases i <;> rfl

/-- The opcode map inverts the opcode of a command (R83). -/
theorem instrOfOpcode_opcode (i : Instr) (useH7 : Bool) (len : Nat) :
    instrOfOpcode i.opcode useH7 len = some (i.withOperands useH7 len) := by
  cases i <;> rfl

/-- The word has the opcode of the command, and every field the command does not use is zero (R83, R85). -/
structure FieldsFit (c : Word32) (i : Instr) : Prop where
  /-- The opcode byte is the command's. -/
  op : opField c = i.opcode
  /-- No command uses `RSV`. -/
  rsv : rsvField c = 0#7
  /-- `H7` is set only where the command uses it. -/
  h7 : h7Field c = true → i.usesH7 = true
  /-- `LEN` is nonzero only where the command uses it. -/
  len : lenField c ≠ 0 → i.usesLen = true

/-- A word that fits a command decodes to it, with the operands of its fields. -/
theorem decode_of_fieldsFit {c : Word32} {i : Instr} (h : FieldsFit c i) :
    decode c = .ok (i.withOperands (h7Field c) (lenField c)) := by
  obtain ⟨hop, hrsv, hh7, hlen⟩ := h
  have hh7' : ¬ (h7Field c && !i.usesH7) = true := by simpa using hh7
  have hlen' : ¬ (lenField c ≠ 0 && !i.usesLen) = true := by simpa using hlen
  simp only [decode, hop, instrOfOpcode_opcode, Instr.usesH7_withOperands, Instr.usesLen_withOperands]
  rw [if_neg (not_not.2 hrsv), if_neg hh7', if_neg hlen']

/-- A word fits the command it decodes to. -/
theorem fieldsFit_of_decode {c : Word32} {i : Instr} (h : decode c = .ok i) : FieldsFit c i :=
  have ⟨_, hrsv, hh7, hlen⟩ := decode_ok h
  ⟨Machine.opField_of_ok h, hrsv, hh7, hlen⟩

/-- A word of a well-formed command fits it. -/
theorem fieldsFit_encode {i : Instr} (h : i.wellFormed = true) : FieldsFit (encode i) i := by
  rw [encode_eq_pack]
  constructor
  · exact opField_pack ..
  · exact rsvField_pack ..
  · rw [h7Field_pack]
    exact Instr.usesH7_of_h7Operand
  · rw [lenField_pack _ _ _ (i.wellFormed_iff.1 h)]
    exact Instr.usesLen_of_lenOperand

/-- The decoder inverts the encoder on well-formed commands (R81, R83). -/
theorem decode_encode {i : Instr} (h : i.wellFormed = true) : decode (encode i) = .ok i := by
  rw [decode_of_fieldsFit (fieldsFit_encode h), encode_eq_pack, h7Field_pack,
    lenField_pack _ _ _ (i.wellFormed_iff.1 h), Instr.withOperands_self]

/-- The decoder answers well-formed commands only (R82). -/
theorem wellFormed_of_decode {c : Word32} {i : Instr} (h : decode c = .ok i) : i.wellFormed = true := by
  have hi : i = i.withOperands (h7Field c) (lenField c) :=
    Except.ok.inj (h.symm.trans (decode_of_fieldsFit (fieldsFit_of_decode h)))
  rw [Instr.wellFormed_iff, hi]
  exact (i.lenOperand_withOperands_le _ _).trans_lt (lenField_lt c)

/-! The rows of the opcode table. -/

/-- The bits of a word that select a command, from the operand fields it uses (R81, R83). -/
def selectMask (usesH7 usesLen : Bool) : Word32 :=
  match usesH7, usesLen with
  | false, false => 0xFFFFFFFF#32
  | true, false => 0xFFFFFEFF#32
  | false, true => 0x0000FFFF#32
  | true, true => 0x0000FEFF#32

/-- The row of the opcode table a command stands in (R83). -/
def Instr.row (i : Instr) : OpcodeRow :=
  ⟨i.mnemonic, selectMask i.usesH7 i.usesLen, i.opcode.setWidth 32⟩

/-- The sixteen commands, one for each row of the opcode table, with operands zero. -/
def commandForms : List Instr :=
  [.setkey 0, .encrypt, .aes128, .cmac 0, .dbl, .subkey, .clr, .f4, .f5, .f6, .g2, .h6, .h7, .ah, .ltk2lk false,
    .lk2ltk false]

theorem opcodeRows_eq_map_row : opcodeRows = commandForms.map Instr.row := by decide

theorem Instr.row_mem_opcodeRows (i : Instr) : i.row ∈ opcodeRows := by
  have hform : i.withOperands false 0 ∈ commandForms := by
    cases i <;> simp [commandForms, Instr.withOperands]
  rw [opcodeRows_eq_map_row]
  exact List.mem_map.2 ⟨_, hform, by cases i <;> rfl⟩

/-- Every row of the opcode table is the row of a command. -/
theorem exists_row_eq {r : OpcodeRow} (h : r ∈ opcodeRows) : ∃ i : Instr, i.row = r := by
  rw [opcodeRows_eq_map_row] at h
  obtain ⟨i, -, hi⟩ := List.mem_map.1 h
  exact ⟨i, hi⟩

theorem nodup_opcodeRows_mnemonic : (opcodeRows.map OpcodeRow.mnemonic).Nodup := by decide

/-- A command's row is the row with its mnemonic. -/
theorem Instr.row_eq_of_mnemonic {i : Instr} {r : OpcodeRow} (hr : r ∈ opcodeRows) (h : i.mnemonic = r.mnemonic) :
    i.row = r :=
  List.inj_on_of_nodup_map nodup_opcodeRows_mnemonic i.row_mem_opcodeRows hr h

/-- Which words are a packed word, by their fields (R81). -/
theorem eq_pack_iff {c : Word32} {op : Byte} {useH7 : Bool} {len : Nat} (hlen : len < 65536) :
    c = packCommand op useH7 len ↔
      opField c = op ∧ rsvField c = 0#7 ∧ h7Field c = useH7 ∧ lenField c = len := by
  constructor
  · rintro rfl
    exact ⟨opField_pack .., rsvField_pack .., h7Field_pack .., lenField_pack _ _ _ hlen⟩
  · rintro ⟨rfl, hrsv, rfl, rfl⟩
    exact (pack_fields c hrsv).symm

/-! The fields of a masked word. -/

theorem opField_and (c m : Word32) : opField (c &&& m) = opField c &&& opField m :=
  BitVec.extractLsb'_and

theorem rsvField_and (c m : Word32) : rsvField (c &&& m) = rsvField c &&& rsvField m :=
  BitVec.extractLsb'_and

theorem h7Field_and (c m : Word32) : h7Field (c &&& m) = (h7Field c && h7Field m) :=
  BitVec.getLsbD_and

theorem lenField_and (c m : Word32) : lenField (c &&& m) = lenField c &&& lenField m := by
  rw [lenField, BitVec.extractLsb'_and, BitVec.toNat_and]
  rfl

theorem opField_and_selectMask (c : Word32) (usesH7 usesLen : Bool) :
    opField (c &&& selectMask usesH7 usesLen) = opField c := by
  have hmask : opField (selectMask usesH7 usesLen) = BitVec.allOnes 8 := by revert usesH7 usesLen; decide
  rw [opField_and, hmask, BitVec.and_allOnes]

theorem rsvField_and_selectMask (c : Word32) (usesH7 usesLen : Bool) :
    rsvField (c &&& selectMask usesH7 usesLen) = rsvField c := by
  have hmask : rsvField (selectMask usesH7 usesLen) = BitVec.allOnes 7 := by revert usesH7 usesLen; decide
  rw [rsvField_and, hmask, BitVec.and_allOnes]

theorem h7Field_and_selectMask (c : Word32) (usesH7 usesLen : Bool) :
    h7Field (c &&& selectMask usesH7 usesLen) = (h7Field c && !usesH7) := by
  have hmask : h7Field (selectMask usesH7 usesLen) = !usesH7 := by revert usesH7 usesLen; decide
  rw [h7Field_and, hmask]

theorem lenField_and_selectMask (c : Word32) (usesH7 usesLen : Bool) :
    lenField (c &&& selectMask usesH7 usesLen) = if usesLen then 0 else lenField c := by
  have hmask : lenField (selectMask usesH7 usesLen) = if usesLen then 0 else 2 ^ 16 - 1 := by
    revert usesH7 usesLen; decide
  rw [lenField_and, hmask]
  split
  · exact Nat.and_zero _
  · rw [Nat.and_two_pow_sub_one_eq_mod, Nat.mod_eq_of_lt (lenField_lt c)]

/-- The value of a command's row is its opcode packed with both operand fields zero. -/
theorem Instr.row_value_eq_pack (i : Instr) : i.row.value = packCommand i.opcode false 0 := by
  simp [Instr.row, packCommand]

/-- A word matches the mask and value of a command's row exactly when it fits the command (R83, R85). -/
theorem row_matches_iff_fieldsFit (c : Word32) (i : Instr) : c &&& i.row.mask = i.row.value ↔ FieldsFit c i := by
  rw [i.row_value_eq_pack, eq_pack_iff (by decide), Instr.row, opField_and_selectMask, rsvField_and_selectMask,
    h7Field_and_selectMask, lenField_and_selectMask]
  constructor
  · rintro ⟨hop, hrsv, hh7, hlen⟩
    exact ⟨hop, hrsv, by simpa using hh7, not_imp_comm.1 fun hu => by simpa [hu] using hlen⟩
  · rintro ⟨hop, hrsv, hh7, hlen⟩
    exact ⟨hop, hrsv, by simpa using hh7, ite_eq_left_iff.2 (not_imp_comm.1 hlen)⟩

end Sys2Proof
end

section
/-! SUPPORT. The words that spell no command: their code from `Check` (`60_exceptions.md` R252) and their refusal
(`30_encoding.md` R85). -/

namespace Sys2Proof.Machine

/-- A word that `Check` turns away is refused with its code (R254). -/
theorem hostEvent_of_check {c : Word32} {s : State} {code : Byte} (hcheck : check c s = code) (hcode : code ≠ eNone) :
    hostEvent (.write 0x000 4 c) s = .next (refusedWith (opField c) code s) := by
  subst hcheck
  rw [hostEvent_writeCmd, deliver_eq_commandFrame, commandFrame_of_refused hcode]

/-- `Check` of an opcode that R85 (a) lists (R252 step 1). -/
theorem check_of_unassignedOpcode {c : Word32} (s : State) (h : UnassignedOpcode (opField c)) :
    check c s = eOpcode := by
  rw [check, (unassigned_iff _).1 h]
  rfl

/-- `Check` of an assigned opcode with an unused field set (R252 steps 2 to 4). -/
theorem check_of_unusedFieldSet {c : Word32} (s : State) (hop : ¬ UnassignedOpcode (opField c))
    (h : UnusedFieldSet c) : check c s = eRsvd := by
  rw [unassigned_iff, Bool.not_eq_false] at hop
  unfold check
  rcases h with hrsv | ⟨hh7, hltk, hlk⟩ | ⟨hlen, hset, hmac⟩
  · simp [hop, hrsv]
  · simp [hop, hh7, hltk, hlk]
  · simp [hop, hlen, hset, hmac]

end Sys2Proof.Machine
end

section
/-! PROOF. The obligations of `30_encoding.md`. -/

namespace Sys2Proof.Machine

/-- Settles O1, by the fields of the packed word. -/
theorem decodeOfEncode : Obligations.DecodeOfEncode := fun _ h => decode_encode h

/-- Settles O2: the fields of a word that decodes are its command's opcode and operands. -/
theorem encodeOfDecode : Obligations.EncodeOfDecode :=
  fun _ _ h => ⟨encode_of_decode h, wellFormed_of_decode h⟩

/-- Settles O3: both sides say that the word's fields fit the command of the row. -/
theorem decodeMatchesOpcodeTable : Obligations.DecodeMatchesOpcodeTable := by
  intro c r hr
  constructor
  · intro hmatch
    obtain ⟨i, rfl⟩ := exists_row_eq hr
    exact ⟨_, decode_of_fieldsFit ((row_matches_iff_fieldsFit c i).1 hmatch), i.mnemonic_withOperands _ _⟩
  · rintro ⟨i, hdecode, hmnemonic⟩
    obtain rfl := Instr.row_eq_of_mnemonic hr hmnemonic
    exact (row_matches_iff_fieldsFit c i).2 (fieldsFit_of_decode hdecode)

/-- Settles O5: `Check` gives the word its code, and the write refuses it with that code. -/
theorem reservedWordsRefused : Obligations.ReservedWordsRefused := fun s _ =>
  ⟨fun hop => hostEvent_of_check (check_of_unassignedOpcode s hop) (by decide),
    fun hop hset => hostEvent_of_check (check_of_unusedFieldSet s hop hset) (by decide)⟩

/-- Settles O7: a write of `CMD` delivers its word, and the delivery is the frame. -/
theorem cmdWriteIsCommandFrame : Obligations.CmdWriteIsCommandFrame := fun s c => by
  rw [hostEvent_writeCmd, deliver_eq_commandFrame]

/-- Settles O4, by running the decoder on the seven words. -/
theorem specWordsDecode : Obligations.SpecWordsDecode := by
  unfold Obligations.SpecWordsDecode
  decide

end Sys2Proof.Machine
end

section
/-! SUPPORT. How a command is spelled, the *Encoding* and *Refusals* of every command rule (`30_encoding.md` R83, R85),
and the operand of `ENCRYPT`, which is not reversed (`20_memory.md` R53). -/

namespace Sys2Proof.Machine

/-- No command has an opcode that R85 (a) lists. -/
theorem not_unassignedOpcode_opcode (i : Instr) : ¬ UnassignedOpcode i.opcode := by
  rw [unassigned_iff, isOpcode_opcode]
  decide

/-- A word that decodes to a command spells it: with an unused field set its opcode is refused with `E_RSVD`. -/
theorem spelledBy_of_decode {w : Word32} {i : Instr} (h : decode w = .ok i) : SpelledBy w i := by
  refine ⟨h, fun s c hop hset => ?_⟩
  have hcheck : check c s = eRsvd := check_of_unusedFieldSet s (hop ▸ not_unassignedOpcode_opcode i) hset
  rw [← hop]
  exact hostEvent_of_check hcheck (by decide)

/-- A slot read in AES order is what the buffer holds there (R53 (a)). -/
theorem slotAes_of_read {n lo : Nat} {s : State} {u : Bytes n} (h : ∀ i : Fin n, s.ib.read (lo + i.val) = u[i]) :
    slotAes n lo s = u := by
  apply bytes_ext
  intro i
  simpa using h i

end Sys2Proof.Machine
end

section
/-! SUPPORT. The field arithmetic and the S-box (`40_aes128.md` R111 to R113). -/

namespace Sys2Proof.Machine

/-- Multiplication by x is a shift and a reduction by 0x11B when the top bit leaves the byte (R111). -/
theorem xtime_eq_xor (b : Byte) : xtime b = b <<< 1 ^^^ (if b.getLsbD 7 then 0x1B#8 else 0#8) := by
  unfold xtime
  split
  · rfl
  · exact BitVec.xor_zero.symm

/-- Multiplication by x is linear (R111). -/
theorem xtime_xor (a b : Byte) : xtime (a ^^^ b) = xtime a ^^^ xtime b := by
  have hreduce : (if (a ^^^ b).getLsbD 7 then 0x1B#8 else 0#8) =
      (if a.getLsbD 7 then 0x1B#8 else 0#8) ^^^ (if b.getLsbD 7 then 0x1B#8 else 0#8) := by
    rw [BitVec.getLsbD_xor]
    cases a.getLsbD 7 <;> cases b.getLsbD 7 <;> decide
  rw [xtime_eq_xor, xtime_eq_xor, xtime_eq_xor, hreduce, BitVec.shiftLeft_xor_distrib]
  ac_rfl

@[simp] theorem xtime_zero : xtime 0#8 = 0#8 := by decide

/-- Multiplication by x moves from the multiple to the product (R111). -/
theorem gmulBits_xtime (n : Nat) (a b : Byte) : gmulBits n (xtime a) b = xtime (gmulBits n a b) := by
  induction n generalizing a b with
  | zero => simp [gmulBits]
  | succ n ih =>
    rw [gmulBits, gmulBits, xtime_xor, ih]
    split <;> simp

/-- The product is linear in its first factor (R111). -/
theorem gmulBits_xor (n : Nat) (a a' b : Byte) :
    gmulBits n (a ^^^ a') b = gmulBits n a b ^^^ gmulBits n a' b := by
  induction n generalizing a a' b with
  | zero => simp [gmulBits]
  | succ n ih =>
    rw [gmulBits, gmulBits, gmulBits, xtime_xor, ih]
    split
    · ac_rfl
    · simp

/-- 1 is the unit of the product (R111). -/
theorem gmul_one : ∀ b : Byte, gmul 1#8 b = b := by
  decide +kernel

/-- The multiplier `mul2` is the product with 2 (R111). -/
theorem gmul_two (b : Byte) : gmul 2#8 b = mul2 b := by
  calc gmul 2#8 b
    _ = xtime (gmul 1#8 b) := gmulBits_xtime 8 1#8 b
    _ = mul2 b := by rw [gmul_one, mul2]

/-- The multiplier `mul3` is the product with 3 (R111). -/
theorem gmul_three (b : Byte) : gmul 3#8 b = mul3 b := by
  calc gmul 3#8 b
    _ = gmul 2#8 b ^^^ gmul 1#8 b := gmulBits_xor 8 2#8 1#8 b
    _ = mul3 b := by rw [gmul_two, gmul_one, mul2, mul3]

/-- The affine step undone: the rotations by 1, 3 and 6 invert those of R112. -/
def sboxAffineInverse (y : Byte) : Byte := y.rotateLeft 1 ^^^ y.rotateLeft 3 ^^^ y.rotateLeft 6 ^^^ 0x05#8

/-- Every byte is the affine image of its affine inverse (R112). -/
theorem sboxAffine_sboxAffineInverse : ∀ y : Byte, sboxAffine (sboxAffineInverse y) = y := by
  decide +kernel

/-- The table's entry with the affine step undone is the multiplicative inverse (R112, R113). -/
theorem gmul_sboxAffineInverse_sbox : ∀ a : Byte, a ≠ 0#8 → gmul a (sboxAffineInverse (sbox a)) = 1#8 := by
  decide +kernel

end Sys2Proof.Machine
end

section
/-! SUPPORT. The key schedule's recurrence and the columns of `MixColumns` (`40_aes128.md` R115, R119). -/

namespace Sys2Proof.Machine

/-- The words from `w[i-4]` on: the four the recurrence starts from, and those it gives (R115). -/
def scheduleWords (n i : Nat) (a b c d : Word32) : List Word32 := a :: b :: c :: d :: scheduleFrom n i a b c d

@[simp] theorem scheduleWords_length (n i : Nat) (a b c d : Word32) : (scheduleWords n i a b c d).length = n + 4 := by
  simp [scheduleWords, scheduleFrom_length]

/-- Without its first word, the schedule is the one that starts a word later. -/
theorem scheduleWords_succ (n i : Nat) (a b c d : Word32) :
    scheduleWords (n + 1) i a b c d = a :: scheduleWords n (i + 1) b c d (a ^^^ scheduleTerm i d) := rfl

/-- Every word after the first four is the one four before it, xored with the term of the one before it (R115). -/
theorem scheduleWords_recurrence (n i : Nat) (a b c d : Word32) (j : Nat) (h : j < n) :
    (scheduleWords n i a b c d)[4 + j]'(by simp; omega) =
      (scheduleWords n i a b c d)[j]'(by simp; omega) ^^^
        scheduleTerm (i + j) ((scheduleWords n i a b c d)[3 + j]'(by simp; omega)) := by
  induction n generalizing i a b c d j with
  | zero => omega
  | succ n ih =>
    cases j with
    | zero => rfl
    | succ j =>
      have hstep := ih (i + 1) b c d (a ^^^ scheduleTerm i d) j (by omega)
      simpa only [scheduleWords_succ, ← Nat.add_assoc, List.getElem_cons_succ, Nat.add_right_comm i 1 j] using hstep

theorem keyExpansion_getElem (key : Octet16) (i : Nat) (h : i < 44) :
    (keyExpansion key)[i] =
      (scheduleWords 40 4 (keyWord key 0) (keyWord key 1) (keyWord key 2) (keyWord key 3))[i]'(by simpa) := rfl

/-- The schedule starts with the words of the key (R115). -/
theorem keyExpansion_keyWord (key : Octet16) (i : Fin 4) : (keyExpansion key)[i.val] = keyWord key i := by
  fin_cases i <;> rfl

/-- Byte `k` of word `i` of the key (R115). -/
theorem wordByte_keyWord (key : Octet16) (i k : Fin 4) : wordByte (keyWord key i) k.val = key[4 * i.val + k.val] := by
  obtain ⟨h0, h1, h2, h3⟩ :=
    wordByte_wordOfBytes key[4 * i.val] key[4 * i.val + 1] key[4 * i.val + 2] key[4 * i.val + 3]
  match k with
  | 0 => exact h0
  | 1 => exact h1
  | 2 => exact h2
  | 3 => exact h3

/-- Byte `k` of column `c` of `MixColumns` (R119). -/
theorem mixColumns_getElem (s : Octet16) (c : Fin 4) (k : Nat) (hk : k < 4) :
    (mixColumns s)[4 * c.val + k] =
      mixRow k s[4 * c.val] s[4 * c.val + 1] s[4 * c.val + 2] s[4 * c.val + 3] := by
  have hcolumn : (4 * c.val + k) / 4 = c.val := by omega
  have hrow : (4 * c.val + k) % 4 = k := by omega
  simp [mixColumns, hcolumn, hrow]

end Sys2Proof.Machine
end

section
/-! PROOF. The obligations of `40_aes128.md`. -/

namespace Sys2Proof.Machine

/-- Settles O33: the word decodes to `SETKEY 16`, and the command's length decides what it answers. -/
theorem setkeyResult : Obligations.SetkeyResult := by
  refine ⟨spelledBy_of_decode (by decide), fun s => ⟨?_, fun len hlen => ?_⟩⟩
  · rw [exec_setkey, if_pos rfl]
  · rw [exec_setkey, if_neg hlen, eKeyLen]

/-- Settles O34: the word decodes to `ENCRYPT`, and `RKV` decides what it answers. -/
theorem encryptResult : Obligations.EncryptResult := by
  refine ⟨spelledBy_of_decode (by decide), fun s p hp => ⟨fun hrkv => ?_, fun hrkv => ?_⟩⟩
  · have hslot : slotAes 16 0 s = p := slotAes_of_read fun i => by simpa using hp i
    rw [exec_encrypt, if_pos hrkv, hslot]
  · rw [exec_encrypt, hrkv, if_neg nofun, eNoKey]

/-- Settles O35: the word decodes to `AES128`, whose operands are the values the slots hold. -/
theorem aes128Result : Obligations.Aes128Result := by
  refine ⟨spelledBy_of_decode (by decide), fun s k p hkey hslot => ?_⟩
  rw [exec_aes128, keySpec_of_keyField hkey, slotSpec_of_slotField hslot]

/-- Settles O50: the inverse of a byte is its table entry with the affine step undone. -/
theorem sboxIsInverseThenAffine : Obligations.SboxIsInverseThenAffine :=
  ⟨by decide, fun a ha =>
    ⟨sboxAffineInverse (sbox a), gmul_sboxAffineInverse_sbox a ha, (sboxAffine_sboxAffineInverse _).symm⟩⟩

/-- Settles O51: the first four words are the key's, the others follow the recurrence. -/
theorem keyScheduleRecurrence : Obligations.KeyScheduleRecurrence := by
  intro key
  refine ⟨fun i k => ?_, fun i => ?_⟩
  · rw [keyExpansion_keyWord, wordByte_keyWord]
  · simp only [keyExpansion_getElem]
    exact scheduleWords_recurrence 40 4 _ _ _ _ i.val i.isLt

/-- Settles O49: the product is linear in its first factor, and multiplication by x moves out of it. -/
theorem gmulTwoAndThree : Obligations.GmulTwoAndThree := fun b => ⟨gmul_two b, gmul_three b⟩

/-- Settles O52, row by row, with the multipliers as products. -/
theorem mixColumnsMatrix : Obligations.MixColumnsMatrix := by
  rintro s c _ _ _ _ rfl rfl rfl rfl
  simp only [gmul_two, gmul_three]
  refine ⟨?_, ?_, ?_, ?_⟩
  · exact mixColumns_getElem s c 0 (by decide)
  · exact mixColumns_getElem s c 1 (by decide)
  · exact mixColumns_getElem s c 2 (by decide)
  · exact mixColumns_getElem s c 3 (by decide)

end Sys2Proof.Machine
end

section
/-! SUPPORT. The doubler bit by bit (`41_cmac.md` R150): bit `k` of the integer a 16-byte value stands for, byte 0 most
significant, and where the doubler takes it from. -/

namespace Sys2Proof.Machine

/-- Bit `k` of the 128-bit integer that `x` stands for: a bit of byte `15 - k/8` (R150). -/
def octetBit (x : Octet16) (k : Nat) : Bool := x[15 - k / 8].getLsbD (k % 8)

/-- The integer of a byte sequence with one more byte at its least significant end. -/
theorem specNat_concat (l : List Byte) (b : Byte) : specNat (l ++ [b]) = 2 ^ 8 * specNat l + b.toNat := by
  rw [specNat, List.foldl_concat, ← specNat, Nat.mul_comm]
  rfl

/-- Bit `k` of a sequence's integer is in the byte `k/8` places before its end. -/
theorem specNat_testBit (l : List Byte) (k : Nat) :
    (specNat l).testBit k = (l.reverse.getD (k / 8) 0#8).getLsbD (k % 8) := by
  induction l using List.reverseRecOn generalizing k with
  | nil => simp [specNat]
  | append_singleton l b ih =>
    rw [specNat_concat, Nat.testBit_two_pow_mul_add _ b.isLt, List.reverse_concat]
    by_cases hk : k < 8
    · rw [if_pos hk, Nat.div_eq_of_lt hk, Nat.mod_eq_of_lt hk]
      rfl
    · have hdiv : k / 8 = (k - 8) / 8 + 1 := by omega
      have hmod : k % 8 = (k - 8) % 8 := by omega
      rw [if_neg hk, ih, hdiv, hmod]
      rfl

/-- The bits of a 16-byte value's integer. -/
theorem specNat_toList_testBit (x : Octet16) {k : Nat} (h : k < 128) :
    (specNat x.toList).testBit k = octetBit x k := by
  have hk : k / 8 < x.toList.length := by simp; omega
  rw [specNat_testBit, List.getD_reverse _ hk, octetBit]
  simp [show 15 - k / 8 < 16 by omega]

/-- The integer of a 16-byte value has 128 bits. -/
theorem specNat_toList_lt (x : Octet16) : specNat x.toList < 2 ^ 128 := by
  refine Nat.lt_pow_two_of_testBit _ fun k hk => ?_
  have hbeyond : x.toList.reverse.length ≤ k / 8 := by simp; omega
  rw [specNat_testBit, List.getD_eq_default _ _ hbeyond, BitVec.getLsbD_zero]

/-- The top bit of a 16-byte value says whether its integer is at least `2^127`. -/
theorem octetBit_top_iff (x : Octet16) : octetBit x 127 = true ↔ 2 ^ 127 ≤ specNat x.toList := by
  have hlt := specNat_toList_lt x
  rw [← specNat_toList_testBit x (by decide), Nat.testBit_eq_decide_div_mod_eq, decide_eq_true_iff]
  omega

/-- Values with equal bits are equal. -/
theorem octet_ext_of_bit {x y : Octet16} (h : ∀ k, k < 128 → octetBit x k = octetBit y k) : x = y := by
  refine bytes_ext fun i => BitVec.eq_of_getLsbD_eq fun j hj => ?_
  have hbit := h (8 * (15 - i.val) + j) (by omega)
  have hbyte : 15 - (8 * (15 - i.val) + j) / 8 = i.val := by omega
  have hoff : (8 * (15 - i.val) + j) % 8 = j := by omega
  simpa only [octetBit, hbyte, hoff, Fin.getElem_fin] using hbit

/-- What the doubler xors into the last byte: `0x87` when the top bit is shifted out (R150). -/
def reduction (x : Octet16) : Byte := if octetBit x 127 then 0x87#8 else 0#8

theorem reduction_getLsbD (x : Octet16) (k : Nat) :
    (reduction x).getLsbD k = (octetBit x 127 && (0x87#8).getLsbD k) := by
  unfold reduction
  cases octetBit x 127
  · exact BitVec.getLsbD_zero
  · rfl

/-- The reduction by the integer of the value (R150). -/
theorem reduction_toNat (x : Octet16) : (reduction x).toNat = if 2 ^ 127 ≤ specNat x.toList then 0x87 else 0 := by
  simp only [reduction, octetBit_top_iff]
  split <;> rfl

/-- Every byte of a doubled value but the last: the bit shifted in comes from the byte after it (R150). -/
theorem double_getElem_of_lt (x : Octet16) {i : Nat} (h : i < 15) :
    (double x)[i] = x[i] <<< 1 ||| x[i + 1] >>> 7 := by
  simp [double, h]

/-- The last byte of a doubled value (R150). -/
theorem double_getElem_last (x : Octet16) : (double x)[15] = x[15] <<< 1 ^^^ reduction x := by
  have hlast : (double x)[15] = if octetBit x 127 then x[15] <<< 1 ^^^ 0x87#8 else x[15] <<< 1 :=
    tabulate_getElem _ 15 (by decide)
  rw [hlast, reduction]
  split
  · rfl
  · exact BitVec.xor_zero.symm

/-- Bit `k` of a doubled value is bit `k - 1` of the value, flipped by the reduction in the last byte (R150). -/
theorem octetBit_double (x : Octet16) {k : Nat} (h : k < 128) :
    octetBit (double x) k = ((decide (1 ≤ k) && octetBit x (k - 1)) ^^ (reduction x).getLsbD k) := by
  by_cases hlast : k < 8
  · have hbyte : octetBit (double x) k = (double x)[15].getLsbD k := by
      simp only [octetBit, Nat.div_eq_of_lt hlast, Nat.mod_eq_of_lt hlast]
    have hshift : (x[15] <<< 1).getLsbD k = (decide (1 ≤ k) && octetBit x (k - 1)) := by
      have hdiv : (k - 1) / 8 = 0 := by omega
      have hmod : (k - 1) % 8 = k - 1 := by omega
      have hpos : (!decide (k < 1)) = decide (1 ≤ k) := by simp only [← decide_not, Nat.not_lt]
      simp only [BitVec.getLsbD_shiftLeft, octetBit, hdiv, hmod, hlast, hpos, decide_true, Bool.true_and, Nat.sub_zero]
    rw [hbyte, double_getElem_last, BitVec.getLsbD_xor, hshift]
  · have hk : 1 ≤ k := by omega
    have hred : (reduction x).getLsbD k = false := BitVec.getLsbD_of_ge _ _ (by omega)
    rw [hred, octetBit, double_getElem_of_lt x (by omega), octetBit]
    by_cases hcarry : k % 8 = 0
    · have hdiv : 15 - (k - 1) / 8 = 15 - k / 8 + 1 := by omega
      have hmod : (k - 1) % 8 = 7 := by omega
      simp [hcarry, hdiv, hmod, hk]
    · have hdiv : (k - 1) / 8 = k / 8 := by omega
      have hmod : (k - 1) % 8 = k % 8 - 1 := by omega
      have hout : x[15 - k / 8 + 1].getLsbD (7 + k % 8) = false := BitVec.getLsbD_of_ge _ _ (by omega)
      have hin : k % 8 < 8 := by omega
      simp [hcarry, hdiv, hmod, hk, hout, hin, -BitVec.getLsbD_eq_getElem]

/-- Bit 0 of a doubled value is the bit that was shifted out (R150). -/
theorem octetBit_double_zero (x : Octet16) : octetBit (double x) 0 = octetBit x 127 := by
  rw [octetBit_double x (by decide), reduction_getLsbD]
  simp

/-- The doubler loses nothing: bit 0 of the result tells the top bit, and with it the reduction (R150). -/
theorem double_injective : Function.Injective double := by
  intro x y hxy
  have htop : octetBit x 127 = octetBit y 127 := by rw [← octetBit_double_zero, hxy, octetBit_double_zero]
  refine octet_ext_of_bit fun k hk => ?_
  by_cases hk127 : k = 127
  · rw [hk127, htop]
  · have hbit : octetBit (double x) (k + 1) = octetBit (double y) (k + 1) := by rw [hxy]
    rw [octetBit_double x (by omega), octetBit_double y (by omega), reduction, reduction, htop] at hbit
    simpa using hbit

/-- There are finitely many 16-byte values. -/
theorem finite_octet16 : Finite Octet16 :=
  Finite.of_injective (fun (x : Octet16) (i : Fin 16) => x[i]) fun _ _ h => bytes_ext (congrFun h)

end Sys2Proof.Machine
end

section
/-! SUPPORT. The word of `CMAC`, and the blocks of a message, the final block and the chain (`41_cmac.md` R153 to R155,
R159). -/

namespace Sys2Proof.Machine

/-- The word of `CMAC len` is the one its encoder gives (R159). -/
theorem cmacWord_eq_encode (len : Nat) : BitVec.ofNat 32 len <<< 16 ||| 0x04#32 = encode (.cmac len) := by
  simp [encode, packCommand]

/-- A list without its first `n` entries, read at `i`. -/
theorem getD_drop (m : List Byte) (n i : Nat) : (m.drop n).getD i 0#8 = m.getD (n + i) 0#8 := by
  simp [List.getD_eq_getElem?_getD]

/-- The bytes of the blocks before the last (R153). -/
theorem messageBlock_getElem (m : List Byte) (i : Nat) (j : Fin 16) :
    (messageBlock m i)[j] = m.getD (16 * i + j.val) 0#8 := by
  simp [messageBlock, List.getD_eq_getElem?_getD]

/-- The bounds that say `n = max(1, ceil(len/16))` (R153). -/
theorem blockCount_eq {len n : Nat} (hn : 1 ≤ n) (hle : len ≤ 16 * n) (hlt : 1 < n → 16 * (n - 1) < len) :
    blockCount len = n := by
  unfold blockCount
  omega

/-- A message of full blocks has its last 16 bytes as last block (R153). -/
theorem lastBlock_of_full {m : List Byte} (hpos : m.length > 0) (hfull : m.length % 16 = 0) :
    lastBlock m = m.drop (m.length - 16) := by
  have hstart : 16 * (blockCount m.length - 1) = m.length - 16 := by
    unfold blockCount
    omega
  rw [lastBlock, hstart]

/-- Otherwise the last block is what the full blocks leave, which may be nothing (R153). -/
theorem lastBlock_of_partial {m : List Byte} (h : ¬ (m.length > 0 ∧ m.length % 16 = 0)) :
    lastBlock m = m.drop (m.length - m.length % 16) := by
  have hstart : 16 * (blockCount m.length - 1) = m.length - m.length % 16 := by
    unfold blockCount
    omega
  rw [lastBlock, hstart]

/-- The bytes of a padded block: its own, then `0x80`, then zeros (R154). -/
theorem padded_getD (l : List Byte) (n i : Nat) :
    (l ++ [0x80#8] ++ List.replicate n 0#8).getD i 0#8 =
      if i < l.length then l.getD i 0#8 else if i = l.length then 0x80#8 else 0#8 := by
  rw [List.append_assoc]
  by_cases hi : i < l.length
  · rw [if_pos hi, List.getD_append _ _ _ _ hi]
  · rw [if_neg hi, List.getD_append_right _ _ _ _ (by omega)]
    by_cases heq : i = l.length
    · simp [heq]
    · obtain ⟨j, hj⟩ : ∃ j, i - l.length = j + 1 := ⟨i - l.length - 1, by omega⟩
      rw [if_neg heq, hj]
      exact List.getElem?_getD_replicate_default_eq ..

/-- The final block of a message of full blocks: its last 16 bytes, masked with `K1` (R154). -/
theorem finalBlock_getElem_of_full (k1 k2 : Octet16) {m : List Byte} (h : m.length > 0 ∧ m.length % 16 = 0)
    (i : Fin 16) : (finalBlock k1 k2 m)[i] = m.getD (m.length - 16 + i.val) 0#8 ^^^ k1[i] := by
  obtain ⟨hpos, hfull⟩ := h
  rw [finalBlock, if_pos ⟨hpos, hfull⟩, Fin.getElem_fin, xorBytes_getElem, toOctet16_getElem,
    lastBlock_of_full hpos hfull, getD_drop]
  rfl

/-- The final block of any other message: the bytes left over, padded, and masked with `K2` (R154). -/
theorem finalBlock_getElem_of_partial (k1 k2 : Octet16) {m : List Byte}
    (h : ¬ (m.length > 0 ∧ m.length % 16 = 0)) (i : Fin 16) :
    (finalBlock k1 k2 m)[i] =
      (if i.val < m.length % 16 then m.getD (m.length - m.length % 16 + i.val) 0#8
        else if i.val = m.length % 16 then 0x80#8 else 0#8) ^^^ k2[i] := by
  have hlength : (lastBlock m).length = m.length % 16 := by
    rw [lastBlock_of_partial h, List.length_drop]
    omega
  rw [finalBlock, if_neg h, Fin.getElem_fin, xorBytes_getElem, toOctet16_getElem, padded_getD, hlength,
    lastBlock_of_partial h, getD_drop]
  rfl

/-- The values of the chain are determined by its equations (R155). -/
theorem eq_cbcChain {key : Octet16} {m : List Byte} {n : Nat} {xs block : Nat → Octet16}
    (hblock : ∀ i, i + 1 < n → block (i + 1) = messageBlock m i) (hzero : xs 0 = zero128)
    (hstep : ∀ i, i + 1 < n → xs (i + 1) = aesEnc key (xorBytes (xs i) (block (i + 1)))) :
    ∀ i, i < n → xs i = cbcChain key m i
  | 0, _ => hzero
  | i + 1, hi => by
    rw [hstep i hi, hblock i hi, eq_cbcChain hblock hzero hstep i (by omega), cbcChain]

end Sys2Proof.Machine
end

section
/-! PROOF. The obligations of `41_cmac.md`. -/

namespace Sys2Proof.Machine

/-- Settles O36: the word decodes to `DBL`, whose operand is the value the slot holds. -/
theorem dblResult : Obligations.DblResult := by
  refine ⟨spelledBy_of_decode (by decide), fun s x hslot => ?_⟩
  rw [exec_dbl, slotSpec_of_slotField hslot]

/-- Settles O37: the word decodes to `SUBKEY`, whose key is the value `KEY` holds. -/
theorem subkeyResult : Obligations.SubkeyResult := by
  refine ⟨spelledBy_of_decode (by decide), fun s k hkey => ?_⟩
  rw [exec_subkey, keySpec_of_keyField hkey, subkey2, subkey1, cmacL]

/-- Settles O38: the word is the encoder's, and the length decides what the command answers. -/
theorem cmacResult : Obligations.CmacResult := by
  refine ⟨fun len hlen => ?_, fun s k m hkey hle hm => ?_, fun s len hlt => ?_⟩
  · rw [cmacWord_eq_encode]
    exact spelledBy_of_decode (decode_encode (decide_eq_true hlen))
  · rw [exec_cmac, if_neg (Nat.not_lt.2 hle), keySpec_of_keyField hkey, messageSpec_of_bufferMessage hm]
  · rw [exec_cmac, if_pos hlt, eMsgLen]

/-- Settles O53: both sides are below `2^128` and have the same bits. -/
theorem doubleIsIntegerDoubling : Obligations.DoubleIsIntegerDoubling := by
  intro x
  rw [← reduction_toNat]
  have hdouble := specNat_toList_lt (double x)
  have hreduced : (2 * specNat x.toList % 2 ^ 128) ^^^ (reduction x).toNat < 2 ^ 128 :=
    Nat.xor_lt_two_pow (Nat.mod_lt _ (by decide)) ((reduction x).isLt.trans (by decide))
  refine Nat.eq_of_testBit_eq fun k => ?_
  by_cases hk : k < 128
  · have hshift : (2 * specNat x.toList).testBit k = (decide (1 ≤ k) && octetBit x (k - 1)) := by
      rw [← specNat_toList_testBit x (by omega)]
      exact Nat.testBit_two_pow_mul (i := 1)
    rw [specNat_toList_testBit _ hk, octetBit_double x hk, Nat.testBit_xor, Nat.testBit_mod_two_pow, hshift,
      BitVec.testBit_toNat, decide_eq_true hk, Bool.true_and]
  · have hpow : 2 ^ 128 ≤ 2 ^ k := Nat.pow_le_pow_right (by decide) (by omega)
    rw [Nat.testBit_lt_two_pow (hdouble.trans_le hpow), Nat.testBit_lt_two_pow (hreduced.trans_le hpow)]

/-- Settles O54: the doubler is injective, and its values are finitely many. -/
theorem doubleBijective : Obligations.DoubleBijective :=
  haveI := finite_octet16
  double_injective.bijective_of_finite

/-- Settles O55, on the two paths of R154; xor with the padding's zeros changes nothing. -/
theorem finalBlockMasking : Obligations.FinalBlockMasking := by
  intro k1 k2 m i
  split
  · next hfull => exact finalBlock_getElem_of_full k1 k2 hfull i
  · next hpartial =>
    rw [finalBlock_getElem_of_partial k1 k2 hpartial i]
    split
    · rfl
    · split
      · rfl
      · exact BitVec.zero_xor

/-- Settles O56: the bounds fix the number of blocks, and the equations fix the chain. -/
theorem cmacIsCbcChain : Obligations.CmacIsCbcChain := by
  rintro key l m n xs block rfl hn hle hlt hblock hzero hstep
  have hmessage : ∀ i, i + 1 < n → block (i + 1) = messageBlock m i := fun i hi => bytes_ext fun j => by
    rw [hblock (i + 1) j (by omega) hi, messageBlock_getElem, Nat.add_sub_cancel]
  have hchain := eq_cbcChain hmessage hzero fun i hi => hstep (i + 1) (by omega) hi
  rw [cmac, blockCount_eq hn hle hlt, hchain (n - 1) (by omega), subkey2, subkey1, cmacL]

end Sys2Proof.Machine
end

section
/-! SUPPORT. The message of f5, the integer result of g2 and the bytes of ah (`42_derivation.md` R183, R186, R190). -/

namespace Sys2Proof.Machine

/-- The message of f5 step 2 is its counter byte before a tail that does not depend on it (R183). -/
theorem f5Message_eq_cons (cfg : Config) (c : Byte) (n1 n2 : Octet16) (a1 a2 : Bytes 7) :
    f5Message cfg c n1 n2 a1 a2 =
      c :: (cfg.keyidF5.toList ++ n1.toList ++ n2.toList ++ a1.toList ++ a2.toList ++ cfg.lenF5.toList) := rfl

/-- The integer of two byte sequences in a row: the second one takes the least significant bytes. -/
theorem specNat_append (l r : List Byte) : specNat (l ++ r) = 2 ^ (8 * r.length) * specNat l + specNat r := by
  induction r using List.reverseRecOn with
  | nil => simp [specNat]
  | append_singleton r b ih =>
    rw [← List.append_assoc, specNat_concat, specNat_concat, ih, List.length_append, List.length_singleton]
    ring

/-- `raw` of g2 is the integer of the MAC's last four bytes (R186). -/
theorem g2Raw_eq_specNat (mac : Octet16) : g2Raw mac = specNat [mac[12], mac[13], mac[14], mac[15]] := by
  simp only [g2Raw, specNat, List.foldl]
  omega

/-- `raw` of g2 is a 32-bit integer (R186). -/
theorem g2Raw_lt (mac : Octet16) : g2Raw mac < 2 ^ 32 := by
  have h12 := mac[12].isLt
  have h13 := mac[13].isLt
  have h14 := mac[14].isLt
  have h15 := mac[15].isLt
  unfold g2Raw
  omega

/-- `raw` of g2 is the MAC's integer modulo `2^32` (R186). -/
theorem g2Raw_eq_mod (mac : Octet16) : g2Raw mac = specNat mac.toList % 2 ^ 32 := by
  have hlast : mac.toList.drop 12 = [mac[12], mac[13], mac[14], mac[15]] := by
    apply List.ext_getElem
    · simp
    · intro i hi hi'
      have hlt : i < 4 := hi'
      interval_cases i <;> simp
  rw [← List.take_append_drop 12 mac.toList, specNat_append, hlast, ← g2Raw_eq_specNat]
  exact ((Nat.mul_add_mod ..).trans (Nat.mod_eq_of_lt (g2Raw_lt mac))).symm

/-- Whatever the modulus, the value of g2 fits `RES32` (R194). -/
theorem g2_lt (cfg : Config) (u v : Bytes 32) (x y : Octet16) : g2 cfg u v x y < 2 ^ 32 :=
  (Nat.mod_le ..).trans_lt (g2Raw_lt _)

/-- The zero-extension of ah is the one block with its bytes (R190). -/
theorem ahBlock_eq {prand : Bytes 3} {r : Octet16} (hzero : ∀ i : Fin 13, r[i.val] = 0x00#8)
    (hprand : ∀ i : Fin 3, r[13 + i.val] = prand[i]) : ahBlock prand = r := by
  apply bytes_ext
  intro i
  rw [ahBlock, Fin.getElem_fin, toOctet16_getElem]
  by_cases hi : i.val < 13
  · have hr : r[i.val] = 0x00#8 := hzero ⟨i.val, hi⟩
    rw [List.getD_append _ _ _ _ (by simpa using hi), Fin.getElem_fin, hr]
    exact List.getElem?_getD_replicate_default_eq ..
  · obtain ⟨j, hj⟩ : ∃ j : Fin 3, i.val = 13 + j.val := ⟨⟨i.val - 13, by omega⟩, by simp; omega⟩
    rw [List.getD_append_right _ _ _ _ (by simp; omega)]
    simp [hj, hprand j]

/-- `OUT0[0..2]` of `AH`, lowest first: the encryption's last bytes in toolbox order (R190, R197). -/
theorem lowBytes3_rev_ah_getElem (irk : Octet16) (prand : Bytes 3) (k : Fin 3) :
    (lowBytes3 (rev (ah irk prand)))[k.val] = (aesEnc irk (ahBlock prand))[15 - k.val] := by
  have hk : 13 + (2 - k.val) = 15 - k.val := by omega
  simp [lowBytes3, ah, hk]

/-- `OUT0[3..15]` of `AH` is zero (R197). -/
theorem lowBytes3_getElem_zero (b : Bytes 3) (k : Fin 13) : (lowBytes3 b)[3 + k.val] = 0x00#8 := by
  simp [lowBytes3]

end Sys2Proof.Machine
end

section
/-! PROOF. The obligations of `42_derivation.md`. -/

namespace Sys2Proof.Machine

/-- Settles O39: the word decodes to `F4`, whose operands are the values the slots hold. -/
theorem f4Result : Obligations.F4Result := by
  refine ⟨spelledBy_of_decode (by decide), fun s u v x z hu hv hx hz => ?_⟩
  rw [exec_f4, slotSpec_of_slotField hu, slotSpec_of_slotField hv, keySpec_of_keyField hx, slotAes_of_slotField hz,
    f4, f4Message]

/-- Settles O40: the word decodes to `F5`, whose two messages differ in the counter before their common tail. -/
theorem f5Result : Obligations.F5Result := by
  refine ⟨spelledBy_of_decode (by decide), ?_⟩
  rintro s w n1 n2 _ a1 a2 _ hw hn1 hn2 ha1 ha2 rfl rfl
  rw [exec_f5, f5OfSlots, slotSpec_of_slotField hw, slotSpec_of_slotField hn1, slotSpec_of_slotField hn2,
    slotSpec_of_slotField ha1, slotSpec_of_slotField ha2, f5, f5Message_eq_cons, f5Message_eq_cons, f5Key]

/-- Settles O41: the word decodes to `F6`, whose operands are the values the slots hold. -/
theorem f6Result : Obligations.F6Result := by
  refine ⟨spelledBy_of_decode (by decide), fun s w n1 n2 r iocap a1 a2 hw hn1 hn2 hr hio ha1 ha2 => ?_⟩
  rw [exec_f6, keySpec_of_keyField hw, slotSpec_of_slotField hn1, slotSpec_of_slotField hn2, slotSpec_of_slotField hr,
    slotSpec_of_slotField hio, slotSpec_of_slotField ha1, slotSpec_of_slotField ha2, f6, f6Message]

/-- Settles O42: the word decodes to `G2`, whose result is the MAC's integer modulo `2^32` and then `G2_MOD`. -/
theorem g2Result : Obligations.G2Result := by
  refine ⟨spelledBy_of_decode (by decide), ?_⟩
  rintro s u v x y _ hu hv hx hy rfl
  have hvalue : (BitVec.ofNat 32 (g2 s.cfg u v x y)).toNat =
      specNat (cmac x (u.toList ++ v.toList ++ y.toList)).toList % 2 ^ 32 % s.cfg.g2Mod := by
    rw [BitVec.toNat_ofNat, Nat.mod_eq_of_lt (g2_lt ..), g2, g2Raw_eq_mod, g2Message]
  refine ⟨BitVec.ofNat 32 (g2 s.cfg u v x y), ?_, hvalue, fun ⟨_, _, _, _, hmod⟩ => ?_⟩
  · rw [exec_g2, slotSpec_of_slotField hu, slotSpec_of_slotField hv, keySpec_of_keyField hx, slotSpec_of_slotField hy]
  · rw [hvalue, hmod]

/-- Settles O43: the word decodes to `H6`, whose key is the secret in `KEY` and whose message the label in the slot. -/
theorem h6Result : Obligations.H6Result := by
  refine ⟨spelledBy_of_decode (by decide), fun s w keyId hw hkeyId => ?_⟩
  rw [exec_h6, keySpec_of_keyField hw, slotSpec_of_slotField hkeyId, h6]

/-- Settles O44: the word decodes to `H7`, whose key is the salt in `KEY` and whose message the secret in the slot. -/
theorem h7Result : Obligations.H7Result := by
  refine ⟨spelledBy_of_decode (by decide), fun s salt w hsalt hw => ?_⟩
  rw [exec_h7, keySpec_of_keyField hsalt, slotSpec_of_slotField hw, h7]

/-- Settles O45: the word decodes to `AH`, which encrypts the zero-extended slot and keeps three bytes. -/
theorem ahResult : Obligations.AhResult := by
  refine ⟨spelledBy_of_decode (by decide), ?_⟩
  rintro s irk r _ prand hirk hslot hzero hprand rfl
  refine ⟨lowBytes3 (rev (ah irk prand)), ?_, fun k => ?_, lowBytes3_getElem_zero _⟩
  · rw [exec_ah, keySpec_of_keyField hirk, slotSpec_of_slotField hslot]
  · rw [lowBytes3_rev_ah_getElem, ahBlock_eq hzero hprand]

/-- Settles O46: both commands encrypt the same block under the same key. -/
theorem ahAgreesWithAes128 : Obligations.AhAgreesWithAes128 := by
  intro s t a b hkey hlow hhigh ha hb k
  rw [exec_ah] at ha
  rw [exec_aes128] at hb
  cases ha
  cases hb
  have hk : keySpec t = keySpec s := by rw [keySpec, keySpec, hkey]
  have hblock : ahBlock (slotSpec 3 0 s) = slotSpec 16 0 t := by
    refine ahBlock_eq (fun i => ?_) fun i => ?_
    · simpa using hhigh (15 - i.val) (by omega) (by omega)
    · have hi : 15 - (13 + i.val) = 2 - i.val := by omega
      simpa [hi] using hlow (2 - i.val) (by omega)
  calc (lowBytes3 (rev (ah (keySpec s) (slotSpec 3 0 s))))[k.val]
      = (aesEnc (keySpec s) (ahBlock (slotSpec 3 0 s)))[15 - k.val] := lowBytes3_rev_ah_getElem ..
    _ = (aesEnc (keySpec t) (slotSpec 16 0 t))[15 - k.val] := by rw [hk, hblock]
    _ = (rev (aesEnc (keySpec t) (slotSpec 16 0 t)))[k.val] := by rw [rev_getElem]

/-- Settles O57: the lengths of the fields add up, and the block counts are computed. -/
theorem recipeMessageLengths : Obligations.RecipeMessageLengths := by
  intro cfg u v n1 n2 r y z c iocap a1 a2
  refine ⟨?_, ?_, ?_, ?_, by decide⟩
  · simp [f4Message]
  · simp [f5Message]
  · simp [f6Message]
  · simp [g2Message]

end Sys2Proof.Machine
end

section
/-! SUPPORT. The value of `KeyConv` on its two paths (`43_keyconv.md` R220). -/

namespace Sys2Proof.Machine

/-- `KeyConv` is a MAC of the label under the intermediate key: the selector decides whether the input is the message of
that key's MAC (h7) or its key (h6) (R220). -/
theorem keyConv_eq_cmac (input : Octet16) (useH7 : Bool) (saltTmp : Octet16) (keyidTmp label : Bytes 4) :
    keyConv input useH7 saltTmp keyidTmp label =
      cmac (if useH7 then cmac saltTmp input.toList else cmac input keyidTmp.toList) label.toList := by
  cases useH7 with
  | true => rw [keyConv, if_pos rfl, if_pos rfl, h6, h7]
  | false => rw [keyConv, if_neg Bool.false_ne_true, if_neg Bool.false_ne_true, h6, h6]

end Sys2Proof.Machine
end

section
/-! PROOF. The obligations of `43_keyconv.md`. -/

namespace Sys2Proof.Machine

/-- Settles O47: the words decode to `LTK2LK`, which is `KeyConv` of the slot's value under that direction's
constants. -/
theorem ltk2lkResult : Obligations.Ltk2lkResult := by
  refine ⟨spelledBy_of_decode (by decide), spelledBy_of_decode (by decide), ?_⟩
  rintro s useH7 ltk _ hslot rfl
  rw [exec_ltk2lk, slotSpec_of_slotField hslot, ltkToLinkKey, keyConv_eq_cmac]

/-- Settles O48: the words decode to `LK2LTK`, which is `KeyConv` of the slot's value under the other
direction's constants. -/
theorem lk2ltkResult : Obligations.Lk2ltkResult := by
  refine ⟨spelledBy_of_decode (by decide), spelledBy_of_decode (by decide), ?_⟩
  rintro s useH7 linkKey _ hslot rfl
  rw [exec_lk2ltk, slotSpec_of_slotField hslot, linkKeyToLtk, keyConv_eq_cmac]

end Sys2Proof.Machine
end

section
/-! SUPPORT. The word and the effect of `CLR` (`44_system.md` R240), and that no other command clears `ESTICKY`
(`10_state.md` R30). -/

namespace Sys2Proof.Machine

/-- A word with a command's opcode that sets no field the command does not use fits the command (R83, R85). -/
theorem fieldsFit_of_not_unusedFieldSet {c : Word32} {i : Instr} (hop : opField c = i.opcode)
    (h : ¬ UnusedFieldSet c) : FieldsFit c i := by
  obtain ⟨hh7, hlen⟩ := uses_iff (instrOfOpcode_opcode i i.h7Operand i.lenOperand)
  rw [Instr.withOperands_self, ← hop] at hh7 hlen
  obtain ⟨hrsv, hnoH7, hnoLen⟩ := by simpa only [UnusedFieldSet, not_or] using h
  refine ⟨hop, not_not.1 hrsv, fun hset => ?_, fun hset => ?_⟩
  · by_contra hunused
    exact hnoH7 ⟨hset, by simpa [hh7] using hunused⟩
  · by_contra hunused
    exact hnoLen ⟨hset, by simpa [hlen] using hunused⟩

/-- A word with the opcode of `CLR` that is not the word of `CLR` sets an unused field (R88). -/
theorem unusedFieldSet_of_ne_clr {c : Word32} (hop : opField c = Instr.clr.opcode) (hc : c ≠ 0x00000007#32) :
    UnusedFieldSet c :=
  by_contra fun hnone =>
    hc ((decode_eq_clr_iff c).1 (decode_of_fieldsFit (fieldsFit_of_not_unusedFieldSet hop hnone)))

/-- `STATUS` reads as zero after `Reset()` (R28, R290). -/
@[simp] theorem statusWord_resetEngine (s : State) : statusWord (resetEngine s) = 0x00000000#32 := by
  have hreset : statusWord State.reset = 0x00000000#32 := by decide
  exact hreset

/-- `ENCRYPT` after `Reset()` has no schedule (R240, R252). -/
theorem turnedAway_encrypt_resetEngine (s : State) : TurnedAway .encrypt (resetEngine s) eNoKey :=
  .noSchedule _ rfl

/-- A command other than `CLR` sets `ESTICKY` when it is turned away and leaves it when it is executed (R30). -/
theorem esticky_of_exec {i : Instr} {s t : State} (hi : i ≠ .clr) (h : exec i s = .next t) :
    t.esticky = true ∨ t.esticky = s.esticky := by
  rcases exec_outcome hi h with ⟨code, -, rfl⟩ | ⟨-, ⟨⟩⟩
  · exact .inl rfl
  · exact .inr rfl

end Sys2Proof.Machine
end

section
/-! PROOF. The obligation of `44_system.md`. -/

namespace Sys2Proof.Machine

/-- Settles O32: `CLR` is `Reset()`, every other command sets `ESTICKY` or leaves it, and a second word with the opcode
of `CLR` sets a field that `CLR` does not use. -/
theorem clrIsReset : Obligations.ClrIsReset := by
  refine ⟨fun s => ⟨exec_clr s, ?_⟩, fun s t h => ?_, fun i s t hi h hsticky => ?_, fun s c hop hc => ?_⟩
  · rw [hostEvent_writeCmd, deliver_of_decode ((decode_eq_clr_iff _).2 rfl), exec_clr]
    rfl
  · cases (exec_clr s).symm.trans h
    exact ⟨statusWord_resetEngine s, exec_of_turnedAway (turnedAway_encrypt_resetEngine s)⟩
  · exact (esticky_of_exec hi h).elim id fun hkept => hkept.trans hsticky
  · obtain ⟨-, hrefused⟩ := spelledBy_of_decode ((decode_eq_clr_iff _).2 rfl)
    exact hrefused s c hop (unusedFieldSet_of_ne_clr hop hc)

end Sys2Proof.Machine
end

section
/-! SUPPORT. The outcome of `Check` in the terms of `60_exceptions.md` R251, and what a command word records (R253). -/

namespace Sys2Proof.Machine

/-- `RefusalCause c s code`: why the word `c` is refused with `code`, no earlier cause applying (R251, R253). -/
inductive RefusalCause (c : Word32) (s : State) : Byte → Prop where
  /-- `E_OPCODE`: an opcode that is not assigned. -/
  | opcode (hop : UnassignedOpcode (opField c)) : RefusalCause c s 0x01#8
  /-- `E_RSVD`: a field set that the command does not use. -/
  | unusedField (hop : ¬ UnassignedOpcode (opField c)) (hset : UnusedFieldSet c) : RefusalCause c s 0x02#8
  /-- `E_KEYLEN`: `SETKEY` with a length that is not 16. -/
  | keyLength (hop : opField c = 0x01#8) (hset : ¬ UnusedFieldSet c) (hlen : lenField c ≠ 16) :
      RefusalCause c s 0x03#8
  /-- `E_MSGLEN`: `CMAC` of a message the buffer cannot hold. -/
  | messageLength (hop : opField c = 0x04#8) (hset : ¬ UnusedFieldSet c) (hlen : s.cfg.msgMax < lenField c) :
      RefusalCause c s 0x04#8
  /-- `E_NOKEY`: `ENCRYPT` with no schedule loaded. -/
  | noSchedule (hop : opField c = 0x02#8) (hset : ¬ UnusedFieldSet c) (hrkv : s.rkv = false) :
      RefusalCause c s 0x05#8

/-- A word with a cause has the cause's code from `Check` (R252). -/
theorem check_of_cause {c : Word32} {s : State} {code : Byte} (h : RefusalCause c s code) : check c s = code := by
  cases h with
  | opcode hop => exact check_of_unassignedOpcode s hop
  | unusedField hop hset => exact check_of_unusedFieldSet s hop hset
  | keyLength hop hset hlen =>
    exact check_of_turnedAway (decode_of_fieldsFit (i := .setkey 0) (fieldsFit_of_not_unusedFieldSet hop hset))
      (.keyLength _ s hlen)
  | messageLength hop hset hlen =>
    exact check_of_turnedAway (decode_of_fieldsFit (i := .cmac 0) (fieldsFit_of_not_unusedFieldSet hop hset))
      (.messageLength _ s hlen)
  | noSchedule hop hset hrkv =>
    exact check_of_turnedAway (decode_of_fieldsFit (i := .encrypt) (fieldsFit_of_not_unusedFieldSet hop hset))
      (.noSchedule s hrkv)

/-- `Check` of an assigned opcode with no unused field set (R252 steps 5 to 7). -/
theorem check_of_not_unusedFieldSet {c : Word32} (s : State) (hop : ¬ UnassignedOpcode (opField c))
    (hset : ¬ UnusedFieldSet c) :
    check c s =
      if opField c = 0x01#8 ∧ lenField c ≠ 16 then eKeyLen
      else if opField c = 0x04#8 ∧ s.cfg.msgMax < lenField c then eMsgLen
      else if opField c = 0x02#8 ∧ s.rkv = false then eNoKey
      else eNone := by
  rw [unassigned_iff, Bool.not_eq_false] at hop
  simp only [UnusedFieldSet, not_or] at hset
  obtain ⟨hrsv, hh7, hlen⟩ := hset
  have hh7' : ¬ (h7Field c && !(opField c == 0x18#8 || opField c == 0x19#8)) = true := by simpa using hh7
  have hlen' : ¬ (lenField c ≠ 0 && !(opField c == 0x01#8 || opField c == 0x04#8)) = true := by simpa using hlen
  rw [check, if_neg (by simp [hop]), if_neg hrsv, if_neg hh7', if_neg hlen']
  simp

/-- A word that `Check` turns away has a cause for its code (R251, R252). -/
theorem cause_of_check {c : Word32} {s : State} (h : check c s ≠ eNone) : RefusalCause c s (check c s) := by
  by_cases hop : UnassignedOpcode (opField c)
  · rw [check_of_unassignedOpcode s hop]
    exact .opcode hop
  by_cases hset : UnusedFieldSet c
  · rw [check_of_unusedFieldSet s hop hset]
    exact .unusedField hop hset
  rw [check_of_not_unusedFieldSet s hop hset] at h ⊢
  split_ifs at h ⊢ with hcause hcause hcause
  · obtain ⟨hsetkey, hlen⟩ := hcause
    exact .keyLength hsetkey hset hlen
  · obtain ⟨hcmac, hlen⟩ := hcause
    exact .messageLength hcmac hset hlen
  · obtain ⟨hencrypt, hrkv⟩ := hcause
    exact .noSchedule hencrypt hset hrkv
  · exact absurd rfl h

/-- `Check` gives a code exactly when the code's cause is there. -/
theorem check_eq_iff {c : Word32} {s : State} {code : Byte} (hcode : code ≠ eNone) :
    check c s = code ↔ RefusalCause c s code :=
  ⟨fun h => h ▸ cause_of_check (h ▸ hcode), check_of_cause⟩

/-- What the delivery of a word records: the code of `Check`, `ERR` and the opcode byte when it is refused, `DONE` when
it is executed and is not the word of `CLR` (R84, R253). -/
theorem DeliveryOutcome.record {c : Word32} {s t : State} (h : DeliveryOutcome c s t) :
    t.ecode = check c s ∧ (t.err = false ↔ check c s = eNone) ∧ (t.err = true → t.lastop = opField c) ∧
      (check c s = eNone → c ≠ 0x00000007#32 → t.done = true) := by
  cases h with
  | clr hc =>
    subst hc
    exact ⟨rfl, iff_of_true rfl rfl, nofun, fun _ hne => absurd rfl hne⟩
  | refused _ hcheck => exact ⟨rfl, iff_of_false nofun hcheck, fun _ => rfl, fun hnone => absurd hnone hcheck⟩
  | executed _ hcheck i _ _ _ ht =>
    cases ht
    exact ⟨hcheck.symm, iff_of_true rfl hcheck, nofun, fun _ _ => rfl⟩

end Sys2Proof.Machine
end

section
/-! SUPPORT. A command word after a refusal (`60_exceptions.md` R257): `Check` reads nothing a refusal writes, and the
frame overwrites everything a refusal leaves but `ESTICKY`. -/

namespace Sys2Proof.Machine

/-- `Check` reads nothing that a refusal writes (R252, R254). -/
@[simp] theorem check_refusedWith (d : Word32) (op code : Byte) (s : State) :
    check d (refusedWith op code s) = check d s := rfl

/-- `Reset()` leaves no trace of a refusal. -/
@[simp] theorem resetEngine_refusedWith (op code : Byte) (s : State) :
    resetEngine (refusedWith op code s) = resetEngine s := rfl

/-- A second refusal leaves no trace of the first: it sets `ESTICKY` itself. -/
theorem refusedWith_refusedWith (op code op' code' : Byte) (s : State) :
    refusedWith op' code' (refusedWith op code s) = { refusedWith op' code' s with esticky := true } := rfl

/-- The frame of an executed command overwrites what a refusal leaves, but for `ESTICKY` (R84, R254). -/
theorem beginCommand_refusedWith (op code op' : Byte) (s : State) :
    beginCommand op' (refusedWith op code s) = { beginCommand op' s with esticky := true } := rfl

/-- No rule reads or writes `ESTICKY`. -/
theorem runRule_setEsticky (c : Word32) (s : State) (b : Bool) :
    runRule c { s with esticky := b } = { runRule c s with esticky := b } := by
  unfold runRule
  split <;> rfl

/-- No word that passes `Check`, but the word of `CLR`, has the opcode of `CLR` (R88). -/
theorem opField_ne_clr_of_check {c : Word32} {s : State} (hc : c ≠ 0x00000007#32) (hcheck : check c s = eNone) :
    opField c ≠ 0x07#8 := by
  intro hop
  have hassigned : ¬ UnassignedOpcode (opField c) := hop ▸ not_unassignedOpcode_opcode .clr
  have hrsvd := check_of_unusedFieldSet s hassigned (unusedFieldSet_of_ne_clr hop hc)
  exact absurd (hcheck.symm.trans hrsvd) (by decide)

/-- The frame of a word after a refusal is its frame without the refusal, but for `ESTICKY` (R257). -/
theorem commandFrame_refusedWith {d : Word32} (hd : d ≠ 0x00000007#32) (op code : Byte) (s : State) :
    commandFrame d (refusedWith op code s) = { commandFrame d s with esticky := true } := by
  by_cases hcheck : check d s = eNone
  · have hop := opField_ne_clr_of_check hd hcheck
    rw [commandFrame_of_executed hcheck hop, commandFrame_of_executed ((check_refusedWith ..).trans hcheck) hop,
      beginCommand_refusedWith, runRule_setEsticky]
  · rw [commandFrame_of_refused hcheck, commandFrame_of_refused (by rwa [check_refusedWith]), check_refusedWith,
      refusedWith_refusedWith]

end Sys2Proof.Machine
end

section
/-! SUPPORT. A step of a platform is a step of the engine it names, where the platform has that engine
(`60_exceptions.md` R266). -/

namespace Sys2Proof.Machine

/-- What a step of engine `k` that has a next platform did: nothing, where there is no engine `k`, or that engine's own
step. -/
theorem stepAt_cases {p q : Platform} {k : Nat} (h : p.stepAt k = .next q) :
    (p.insts[k]? = none ∧ q = p) ∨
    (∃ s t, p.insts[k]? = some s ∧ step s = .next t ∧ q = { insts := p.insts.set k t }) := by
  unfold Platform.stepAt at h
  split at h
  · next hk =>
    cases h
    exact .inl ⟨hk, rfl⟩
  · next s hk =>
    split at h
    · next t ht =>
      cases h
      exact .inr ⟨s, t, hk, ht, rfl⟩
    · cases h
    · cases h

end Sys2Proof.Machine
end

section
/-! PROOF. The obligations of `60_exceptions.md`. -/

namespace Sys2Proof.Machine

/-- Settles O8: the delivery of a word that `Check` turns away is the refusal with its code. -/
theorem refusalEffect : Obligations.RefusalEffect := fun _ _ hcheck => hostEvent_of_check rfl hcheck

/-- Settles O9: the word records the code of `Check`, and `Check` gives each code exactly for its cause. -/
theorem refusalCauses : Obligations.RefusalCauses := by
  intro s c
  obtain ⟨t, ht⟩ := deliver_total c s
  obtain ⟨hcode, herr, hlastop, -⟩ := (deliver_outcome ht).record
  refine ⟨t, ht, ?_⟩
  rw [hcode]
  refine ⟨(check_eq_iff (by decide)).trans ?_, (check_eq_iff (by decide)).trans ?_,
    (check_eq_iff (by decide)).trans ?_, (check_eq_iff (by decide)).trans ?_, (check_eq_iff (by decide)).trans ?_,
    check_le c s, herr.symm, hlastop⟩
  · exact ⟨fun | .opcode hop => hop, .opcode⟩
  · exact ⟨fun | .unusedField hop hset => ⟨hop, hset⟩, fun ⟨hop, hset⟩ => .unusedField hop hset⟩
  · exact ⟨fun | .keyLength hop hset hlen => ⟨hop, hset, hlen⟩, fun ⟨hop, hset, hlen⟩ => .keyLength hop hset hlen⟩
  · exact ⟨fun | .messageLength hop hset hlen => ⟨hop, hset, hlen⟩,
      fun ⟨hop, hset, hlen⟩ => .messageLength hop hset hlen⟩
  · exact ⟨fun | .noSchedule hop hset hrkv => ⟨hop, hset, hrkv⟩,
      fun ⟨hop, hset, hrkv⟩ => .noSchedule hop hset hrkv⟩

/-- Settles O10: the frame after a refusal is the frame without it but for `ESTICKY`, and the word of `CLR` resets. -/
theorem refusalIsForgotten : Obligations.RefusalIsForgotten := by
  intro s t op code d ht
  rw [hostEvent_writeCmd] at ht ⊢
  obtain ⟨hcode, herr, -, hdone⟩ := (deliver_outcome ht).record
  refine ⟨?_, fun hcheck => ⟨herr.2 hcheck, hcode.trans hcheck, hdone hcheck⟩⟩
  rw [deliver_eq_commandFrame] at ht ⊢
  cases ht
  split
  · next hd => rw [hd, commandFrame_clr, commandFrame_clr, resetEngine_refusedWith]
  · next hd => rw [commandFrame_refusedWith hd]

/-- Settles O58: the step puts engine `k`'s own next state in its place in the list, or there is no engine `k`. -/
theorem instancesShareNothing : Obligations.InstancesShareNothing := by
  intro p q k hstep
  rcases stepAt_cases hstep with ⟨hk, rfl⟩ | ⟨s, t, hk, ht, rfl⟩
  · exact ⟨rfl, fun _ _ => rfl, fun s hs => nomatch hk.symm.trans hs⟩
  · have hlt : k < p.insts.length := (List.getElem?_eq_some_iff.1 hk).1
    refine ⟨List.length_set, fun j hj => List.getElem?_set_ne hj.symm, fun s' hs' => ?_⟩
    cases hk.symm.trans hs'
    exact ⟨t, ht, List.getElem?_set_self hlt⟩

end Sys2Proof.Machine
end

section
/-! SUPPORT. Every legal event has a next state, with the parameters and the queue as they were
(`70_reset_and_hazards.md` R293); the window after `Reset()` (R290); the work of a command word (R301). -/

namespace Sys2Proof.Machine

/-- A host event that R59 does not list has a next state (R293). -/
theorem hostEvent_total {e : HostEvent} {s : State}
    (hread : ∀ off size, e = .read off size → ¬ IllegalAccess s.cfg.msgMax off size)
    (hwrite : ∀ off size v, e = .write off size v → ¬ IllegalAccess s.cfg.msgMax off size) :
    ∃ t, hostEvent e s = .next t := by
  cases e with
  | read off size => exact ⟨_, hostEvent_read_of_legal (hread off size rfl)⟩
  | write off size v => exact hostEvent_write_total (hwrite off size v rfl)
  | hardReset => exact ⟨_, rfl⟩

/-- No event changes the parameters or the events still pending (R6, R62). -/
theorem EventOutcome.cfg_pending {e : HostEvent} {s t : State} (h : EventOutcome e s t) :
    t.cfg = s.cfg ∧ t.pending = s.pending := by
  cases h with
  | reset _ => exact ⟨rfl, rfl⟩
  | refused _ _ _ _ => exact ⟨rfl, rfl⟩
  | executed _ _ _ _ _ _ _ _ ht =>
    cases ht
    exact ⟨rfl, rfl⟩
  | access _ _ _ ht =>
    cases ht
    exact ⟨rfl, rfl⟩

/-- A cleared register reads as zero at every offset, as the window reads it (R55). -/
theorem zero128_getD (i : Nat) : zero128[i]?.getD 0#8 = 0x00#8 := by
  rw [zero128, Vector.getElem?_replicate]
  split <;> rfl

/-- Every byte of the window reads as zero after `Reset()` (R290). -/
theorem windowByte_resetEngine (s : State) (off : Nat) : windowByte (resetEngine s) off = 0x00#8 := by
  unfold windowByte
  split
  · exact zero128_getD _
  · exact zero128_getD _
  · exact zero128_getD _
  · rfl
  · rfl

/-- A word that passes `Check` spells a command (R252 steps 1 to 4). -/
theorem decode_of_check {c : Word32} {s : State} (h : check c s = eNone) : ∃ i, decode c = .ok i := by
  cases hd : decode c with
  | ok i => exact ⟨i, rfl⟩
  | error e =>
    have hcode : decodeErrorCode e = eNone := ((check_decode c s).1 e hd).symm.trans h
    cases e <;> exact absurd hcode (by decide)

/-- A word with the opcode of `CMAC` that decodes spells `CMAC` with the word's length (R82, R83). -/
theorem eq_cmac_of_decode {c : Word32} {i : Instr} (hd : decode c = .ok i) (hop : opField c = 0x04#8) :
    i = .cmac (lenField c) := by
  obtain ⟨hopcode, -, huseLen⟩ := instr_some (decode_ok hd).1
  rw [hop] at hopcode
  cases i with
  | cmac len => simpa using huseLen rfl
  | _ => exact absurd hopcode (by simp [Instr.opcode])

/-- The message of a `CMAC` that passes `Check` fits the buffer (R252 step 6). -/
theorem cmac_len_le_of_check {c : Word32} {s : State} {len : Nat} (hd : decode c = .ok (.cmac len))
    (h : check c s = eNone) : len ≤ s.cfg.msgMax := by
  by_contra hlt
  have hcode : check c s = eMsgLen := check_of_turnedAway hd (.messageLength len s (by omega))
  exact absurd (h.symm.trans hcode) (by decide)

/-- A word that `Check` turns away performs no work (R301). -/
theorem commandWork_of_refused {c : Word32} {s : State} (h : check c s ≠ eNone) : commandWork c s = ⟨0, 0, 0⟩ :=
  if_neg h

/-- A word that passes `Check` performs the work of its command (R301). -/
theorem commandWork_of_executed {c : Word32} {s : State} {i : Instr} (hd : decode c = .ok i)
    (h : check c s = eNone) : commandWork c s = work i := by
  rw [commandWork, if_pos h, hd]

/-- A message that fits a legal buffer has at most `MSG_MAX / 16` blocks (R153). -/
theorem blockCount_le_of_valid {cfg : Config} {len : Nat} (hcfg : cfg.Valid) (h : len ≤ cfg.msgMax) :
    blockCount len ≤ cfg.msgMax / 16 := by
  obtain ⟨hmult, hmin, -, -, -⟩ := hcfg
  unfold blockCount
  omega

end Sys2Proof.Machine
end

section
/-! PROOF. The obligations of `70_reset_and_hazards.md`. -/

namespace Sys2Proof.Machine

/-- Settles O22: the event is legal in the state without it as well, and its outcome leaves the parameters and the rest
of the queue. -/
theorem legalEventsComplete : Obligations.LegalEventsComplete := by
  intro s e rest hp hread hwrite
  obtain ⟨t, ht⟩ := hostEvent_total (s := takeEvent rest s) hread hwrite
  obtain ⟨hcfg, hpending⟩ := (hostEvent_outcome ht).cfg_pending
  exact ⟨t, (step_of_event hp).trans ht, hpending, hcfg⟩

/-- Settles O59: `ERR` after the word says whether `Check` passed it, and `Check` bounds the message of `CMAC`. -/
theorem workOfCommandWord : Obligations.WorkOfCommandWord := by
  intro s t c h
  rw [hostEvent_writeCmd] at h
  obtain ⟨-, herr, -, -⟩ := (deliver_outcome h).record
  refine ⟨fun hset => commandWork_of_refused fun hcheck => ?_, fun hclear => ?_, fun hclear hop => ?_⟩
  · exact absurd (hset.symm.trans (herr.2 hcheck)) (by decide)
  · obtain ⟨i, hd⟩ := decode_of_check (herr.1 hclear)
    exact ⟨i, hd, commandWork_of_executed hd (herr.1 hclear)⟩
  · have hcheck := herr.1 hclear
    obtain ⟨i, hd⟩ := decode_of_check hcheck
    obtain rfl := eq_cmac_of_decode hd hop
    rw [commandWork_of_executed hd hcheck]
    exact ⟨rfl, fun hcfg =>
      Nat.succ_le_succ (blockCount_le_of_valid hcfg (cmac_len_le_of_check hd hcheck))⟩

/-- Settles O18: the state after reset is what `Reset()` makes of it, and its parameters are legal. -/
theorem invAtReset : Obligations.InvAtReset :=
  inv_resetEngine (s := State.reset) (by decide)

/-- Settles O31: `Reset()` element by element, and the words and bytes of the window that read them. -/
theorem resetLeavesZero : Obligations.ResetLeavesZero := by
  intro s
  refine ⟨resetEngine s, rfl, rfl, rfl, rfl, fun _ => rfl, rfl, fun r => ?_, rfl, rfl, rfl, rfl, rfl, rfl, rfl, rfl, rfl,
    statusWord_resetEngine s, rfl, windowByte_resetEngine s, rfl, rfl⟩
  exact Vector.getElem_replicate r.isLt

end Sys2Proof.Machine
end
